-- ==== Sys2Proof/Word.lean ====
section
/-! DEFINITION. The words of the block: the 6-bit selector word, the 3-bit state code, the 3-bit pin
word, an instant of the external time base, and the byte the host numbers an opcode-table row in. -/

namespace Sys2Proof

/-- The 6-bit selector word, the "instruction" of this block (30_encoding.md R55, R58). -/
abbrev Sel := BitVec 6

/-- A 3-bit state code (30_encoding.md R53). -/
abbrev Code := BitVec 3

/-- The pin word `P`, or the asserted word `A` (30_encoding.md R52). -/
abbrev PinWord := BitVec 3

/-- A value of the external time base: `w` stands for `TIME_W` (30_encoding.md R61). -/
abbrev Instant (w : Nat) := BitVec w

/-- A byte. The block has none (20_memory.md R41); the host numbers a table row in whole bytes. -/
abbrev Byte := BitVec 8

end Sys2Proof
end

