-- ==== Sys2Proof/Syntax.lean ====
section
/-! DEFINITION. The names the spec gives: the controller states, the input channels, the servo commands,
the 21 rows of the transition table (the instructions), and the lines of a stimulus trace. -/

namespace Sys2Proof

/-- The eight controller states, in the order of 30_encoding.md R53. "Exactly one is active at any
time" (10_state.md R23). -/
inductive Ctrl where
  | idle
  | cocking
  | cocked
  | firing
  | decocking
  | resetting
  | idleAfterReset
  | recockingAfterReset
  deriving DecidableEq, Repr

/-- The three input channels AF, DA, CS, one debounce filter each (00_scope.md R8, `N_IN` = 3). -/
inductive Chan where
  | armFire
  | disarm
  | camSwitch
  deriving DecidableEq, Repr

/-- The three servo commands. The code `0b11` is never driven, so no fourth constructor exists
(30_encoding.md R59, R60). -/
inductive ServoCmd where
  | reverse
  | neutral
  | forward
  deriving DecidableEq, Repr

/-- One constructor per row of `spec/opcode_table.json` (30_encoding.md R56). The operands of a row are
the bits of the selector word that the row does not read, by name. -/
inductive Instr where
  /-- IDLE_DISARM, pattern `000a1c` (R93). -/
  | idleDisarm (armFire camSwitch : Bool)
  /-- IDLE_ARM, pattern `00010c` (R94). -/
  | idleArm (camSwitch : Bool)
  /-- IDLE_HOLD, pattern `00000c` (R95). -/
  | idleHold (camSwitch : Bool)
  /-- COCKING_DISARM, pattern `001a1c` (R96). -/
  | cockingDisarm (armFire camSwitch : Bool)
  /-- COCKING_CAM, pattern `001a01` (R97). -/
  | cockingCam (armFire : Bool)
  /-- COCKING_HOLD, pattern `001a00` (R98). -/
  | cockingHold (armFire : Bool)
  /-- COCKED_DISARM, pattern `010a1c` (R99). -/
  | cockedDisarm (armFire camSwitch : Bool)
  /-- COCKED_ARM, pattern `01010c` (R100). -/
  | cockedArm (camSwitch : Bool)
  /-- COCKED_HOLD, pattern `01000c` (R101). -/
  | cockedHold (camSwitch : Bool)
  /-- FIRING_DISARM, pattern `011a1c` (R102). -/
  | firingDisarm (armFire camSwitch : Bool)
  /-- FIRING_NOCAM, pattern `011a00` (R103). -/
  | firingNocam (armFire : Bool)
  /-- FIRING_HOLD, pattern `011a01` (R104). -/
  | firingHold (armFire : Bool)
  /-- DECOCKING_NOCAM, pattern `100ad0` (R105). -/
  | decockingNocam (armFire disarm : Bool)
  /-- DECOCKING_HOLD, pattern `100ad1` (R106). -/
  | decockingHold (armFire disarm : Bool)
  /-- RESETTING_CAM, pattern `101ad1` (R107). -/
  | resettingCam (armFire disarm : Bool)
  /-- RESETTING_HOLD, pattern `101ad0` (R108). -/
  | resettingHold (armFire disarm : Bool)
  /-- IDLE_AFTER_RESET_ARM, pattern `1101dc` (R109). -/
  | idleAfterResetArm (disarm camSwitch : Bool)
  /-- IDLE_AFTER_RESET_HOLD, pattern `1100dc` (R110). -/
  | idleAfterResetHold (disarm camSwitch : Bool)
  /-- RECOCKING_AFTER_RESET_DISARM, pattern `111a1c` (R111). -/
  | recockingAfterResetDisarm (armFire camSwitch : Bool)
  /-- RECOCKING_AFTER_RESET_NOCAM, pattern `111a00` (R112). -/
  | recockingAfterResetNocam (armFire : Bool)
  /-- RECOCKING_AFTER_RESET_HOLD, pattern `111a01` (R113). -/
  | recockingAfterResetHold (armFire : Bool)
  deriving DecidableEq, Repr

/-- One line of a stimulus trace, as written: the numbers are the text's, not yet `TIME_W` bits wide
(30_encoding.md R62, R63). -/
inductive TraceLine where
  /-- `reset cam=<c>` -/
  | reset (cam : Bool)
  /-- `tick t=<now> pins=<a><d><c>` -/
  | tick (now : Nat) (pins : PinWord)
  /-- `settle t=<t> pins=<P>`, the one pseudo-instruction. -/
  | settle (now : Nat) (pins : PinWord)
  deriving DecidableEq, Repr

end Sys2Proof
end

