-- ==== Sys2Proof/Config.lean ====
section
/-! DEFINITION. The parameters of 00_scope.md R8. What the source fixes is a number here; what R8 leaves
OPEN (`TIME_W`, `WINDOW`), and what the environment chooses freely (input samples), is an opaque
constant, of which nothing can be proved but its type. -/

namespace Sys2Proof

/-- The two open parameters of R8 that the block's rules read: `TIME_W` and `WINDOW` (counts of `now`).
`TIME_UNIT` is `5 ms / WINDOW`, so it divides 5 ms exactly whatever `WINDOW` is. -/
structure Timing where
  timeW : Nat
  window : Nat
  deriving DecidableEq, Repr, Inhabited

/-- R8's constraint on the open parameters: `0 < WINDOW < 2^TIME_W`. -/
abbrev Timing.Legal (t : Timing) : Prop := 0 < t.window ∧ t.window < 2 ^ t.timeW

/-- R8's reference values, which the test vectors use: 32 bits, 1 µs, 5000 counts. -/
def Timing.reference : Timing := ⟨32, 5000⟩

/-- DESIGN CHOICE, safe (notes/assumptions/3.md): the pair `(TIME_W, WINDOW)` is left open (D3, I11). -/
opaque Config.openTiming : Timing

/-- The timing of the block: any legal pair. An illegal value of the open constant, which no build of the
block has, is read as the reference pair. -/
def Config.timing : Timing :=
  if Config.openTiming.Legal then Config.openTiming else Timing.reference

/-- `TIME_W`: the width of `now` and of every `last_change_time` (R8). -/
def Config.timeW : Nat := Config.timing.timeW

/-- `WINDOW`: the debounce window in counts of `now`, shared by all three filters (R8, R9). -/
def Config.window : Nat := Config.timing.window

/-- `WINDOW_TIME` in milliseconds (R8). The block measures it only as `WINDOW` counts. -/
def Config.windowTimeMs : Nat := 5

/-- `SERVO_PERIOD` in milliseconds (R8): used only by the external PWM generator (00_scope.md R5). -/
def Config.servoPeriodMs : Nat := 20

/-- DESIGN CHOICE, safe (notes/assumptions/4.md): the `cam_switch_pin` sample of the reset edge that
`State.reset` stands right after (R171). -/
opaque Config.bootCamPin : Bool

/-- DESIGN CHOICE, safe (notes/assumptions/2.md): the sample of `rst` at the given edge, where no
stimulus is placed (R139). -/
opaque Config.freeRst : Nat → Bool

/-- The free sample of `now` at the given edge: `now` is a free input (R79). -/
opaque Config.freeNow : Nat → Instant Config.timeW

/-- The free sample of a pin at the given edge: an arbitrary Boolean (R178, I8). -/
opaque Config.freePin : Chan → Nat → Bool

end Sys2Proof
end

