-- ==== Sys2Proof/WellFormed.lean ====
section
/-! DEFINITION. What a well-formed term is. Every operand of an instruction is one bit, and all 64
selector words are legal (30_encoding.md R57), so instructions need no check; stimulus traces (R62, R64)
and timing parameters (00_scope.md R8) do. -/

namespace Sys2Proof

/-- Every instruction is well-formed: R57 reserves no word, and a one-bit operand has no illegal value. -/
def Instr.wellFormed (_ : Instr) : Bool := true

/-- "`<now>` is a … number below `2^TIME_W`" (R62). The sum of `settle` wraps, so only its own `t` is
checked (R63). -/
def TraceLine.wellFormed (w : Nat) : TraceLine → Bool
  | .reset _ => true
  | .tick now _ => decide (now < 2 ^ w)
  | .settle now _ => decide (now < 2 ^ w)

/-- "In every trace, the first line after power-on is a `reset` line" (R64). -/
def startsWithReset : List TraceLine → Bool
  | .reset _ :: _ => true
  | _ => false

/-- A well-formed stimulus trace from power-on: R62 for every line and R64 for the first. -/
def traceWellFormed (w : Nat) (t : List TraceLine) : Bool :=
  startsWithReset t && t.all (TraceLine.wellFormed w)

end Sys2Proof
end

