-- ==== Sys2Proof/Decode.lean ====
section
/-! DEFINITION. State codes (30_encoding.md R53), the selector word's layout (R55), the opcode map
(R56), the decoder over it, the encoder, and the host's byte numbering of a table row. -/

namespace Sys2Proof

/-- The 3-bit code of a state (R53). -/
def Ctrl.code : Ctrl → Code
  | .idle => 0b000#3
  | .cocking => 0b001#3
  | .cocked => 0b010#3
  | .firing => 0b011#3
  | .decocking => 0b100#3
  | .resetting => 0b101#3
  | .idleAfterReset => 0b110#3
  | .recockingAfterReset => 0b111#3

/-- The state of a code: every bit pattern is a legal state (10_state.md R23). -/
def Ctrl.ofCode (c : Code) : Ctrl :=
  if c = 0b000#3 then .idle
  else if c = 0b001#3 then .cocking
  else if c = 0b010#3 then .cocked
  else if c = 0b011#3 then .firing
  else if c = 0b100#3 then .decocking
  else if c = 0b101#3 then .resetting
  else if c = 0b110#3 then .idleAfterReset
  else .recockingAfterReset

/-- The word `sss a d c`: `sel[5:3]` the state code, `sel[2]` arm_fire, `sel[1]` disarm, `sel[0]`
cam_switch (R55). -/
def selWord (st : Code) (armFire disarm camSwitch : Bool) : Sel :=
  st ++ BitVec.ofBool armFire ++ BitVec.ofBool disarm ++ BitVec.ofBool camSwitch

/-- `sel[5:3]` (R55). -/
def selState (w : Sel) : Code := w.extractLsb' 3 3

/-- `sel[2]`, the debounced arm_fire (R55). -/
def selArmFire (w : Sel) : Bool := w.getLsbD 2

/-- `sel[1]`, the debounced disarm (R55). -/
def selDisarm (w : Sel) : Bool := w.getLsbD 1

/-- `sel[0]`, the debounced cam_switch (R55). -/
def selCamSwitch (w : Sel) : Bool := w.getLsbD 0

/-- One line of R56's opcode map: the row's mnemonic, mask, match and next state. -/
structure Row where
  mnemonic : String
  mask : Sel
  pattern : Sel
  next : Ctrl
  deriving DecidableEq, Repr

/-- A word matches a row when `sel & mask == match` (R56). -/
def Row.hits (r : Row) (w : Sel) : Bool := w &&& r.mask == r.pattern

/-- R56's table, one row per constructor of `Instr`. -/
def Instr.row : Instr → Row
  | .idleDisarm _ _ => ⟨"IDLE_DISARM", 0x3A#6, 0x02#6, .resetting⟩
  | .idleArm _ => ⟨"IDLE_ARM", 0x3E#6, 0x04#6, .cocking⟩
  | .idleHold _ => ⟨"IDLE_HOLD", 0x3E#6, 0x00#6, .idle⟩
  | .cockingDisarm _ _ => ⟨"COCKING_DISARM", 0x3A#6, 0x0A#6, .resetting⟩
  | .cockingCam _ => ⟨"COCKING_CAM", 0x3B#6, 0x09#6, .cocked⟩
  | .cockingHold _ => ⟨"COCKING_HOLD", 0x3B#6, 0x08#6, .cocking⟩
  | .cockedDisarm _ _ => ⟨"COCKED_DISARM", 0x3A#6, 0x12#6, .decocking⟩
  | .cockedArm _ => ⟨"COCKED_ARM", 0x3E#6, 0x14#6, .firing⟩
  | .cockedHold _ => ⟨"COCKED_HOLD", 0x3E#6, 0x10#6, .cocked⟩
  | .firingDisarm _ _ => ⟨"FIRING_DISARM", 0x3A#6, 0x1A#6, .decocking⟩
  | .firingNocam _ => ⟨"FIRING_NOCAM", 0x3B#6, 0x18#6, .cocking⟩
  | .firingHold _ => ⟨"FIRING_HOLD", 0x3B#6, 0x19#6, .firing⟩
  | .decockingNocam _ _ => ⟨"DECOCKING_NOCAM", 0x39#6, 0x20#6, .resetting⟩
  | .decockingHold _ _ => ⟨"DECOCKING_HOLD", 0x39#6, 0x21#6, .decocking⟩
  | .resettingCam _ _ => ⟨"RESETTING_CAM", 0x39#6, 0x29#6, .idleAfterReset⟩
  | .resettingHold _ _ => ⟨"RESETTING_HOLD", 0x39#6, 0x28#6, .resetting⟩
  | .idleAfterResetArm _ _ => ⟨"IDLE_AFTER_RESET_ARM", 0x3C#6, 0x34#6, .recockingAfterReset⟩
  | .idleAfterResetHold _ _ => ⟨"IDLE_AFTER_RESET_HOLD", 0x3C#6, 0x30#6, .idleAfterReset⟩
  | .recockingAfterResetDisarm _ _ =>
      ⟨"RECOCKING_AFTER_RESET_DISARM", 0x3A#6, 0x3A#6, .idleAfterReset⟩
  | .recockingAfterResetNocam _ => ⟨"RECOCKING_AFTER_RESET_NOCAM", 0x3B#6, 0x38#6, .cocking⟩
  | .recockingAfterResetHold _ =>
      ⟨"RECOCKING_AFTER_RESET_HOLD", 0x3B#6, 0x39#6, .recockingAfterReset⟩

/-- The row that a word's don't-care bits are read for: each constructor with its operands taken from
the word, in the table's order. -/
def candidates (w : Sel) : List Instr :=
  let a := selArmFire w
  let d := selDisarm w
  let c := selCamSwitch w
  [ .idleDisarm a c, .idleArm c, .idleHold c,
    .cockingDisarm a c, .cockingCam a, .cockingHold a,
    .cockedDisarm a c, .cockedArm c, .cockedHold c,
    .firingDisarm a c, .firingNocam a, .firingHold a,
    .decockingNocam a d, .decockingHold a d,
    .resettingCam a d, .resettingHold a d,
    .idleAfterResetArm d c, .idleAfterResetHold d c,
    .recockingAfterResetDisarm a c, .recockingAfterResetNocam a, .recockingAfterResetHold a ]

/-- The 21 rows of the opcode map, in the table's order (R56). -/
def opcodeMap : List Row := (candidates 0#6).map Instr.row

/-- Why bytes are no selector word. R57 says that a selector word itself is never refused. -/
inductive DecodeError where
  /-- No row matches the word. No word is so (R57). -/
  | noRow
  /-- Bit 6 or 7 of the byte is set: a selector word has six bits (R58). -/
  | notSixBits
  /-- There is no byte. -/
  | noByte
  deriving DecidableEq, Repr

/-- The instruction of a selector word: the row whose mask and match it meets (R56). The rows are
disjoint, so the order of the search is immaterial. -/
def decode (w : Sel) : Except DecodeError Instr :=
  match (candidates w).find? (fun i => i.row.hits w) with
  | some i => .ok i
  | none => .error .noRow

/-- The selector word of an instruction, from the pattern column `sss a d c` of R56. -/
def encode : Instr → Sel
  | .idleDisarm a c => selWord 0b000#3 a true c
  | .idleArm c => selWord 0b000#3 true false c
  | .idleHold c => selWord 0b000#3 false false c
  | .cockingDisarm a c => selWord 0b001#3 a true c
  | .cockingCam a => selWord 0b001#3 a false true
  | .cockingHold a => selWord 0b001#3 a false false
  | .cockedDisarm a c => selWord 0b010#3 a true c
  | .cockedArm c => selWord 0b010#3 true false c
  | .cockedHold c => selWord 0b010#3 false false c
  | .firingDisarm a c => selWord 0b011#3 a true c
  | .firingNocam a => selWord 0b011#3 a false false
  | .firingHold a => selWord 0b011#3 a false true
  | .decockingNocam a d => selWord 0b100#3 a d false
  | .decockingHold a d => selWord 0b100#3 a d true
  | .resettingCam a d => selWord 0b101#3 a d true
  | .resettingHold a d => selWord 0b101#3 a d false
  | .idleAfterResetArm d c => selWord 0b110#3 true d c
  | .idleAfterResetHold d c => selWord 0b110#3 false d c
  | .recockingAfterResetDisarm a c => selWord 0b111#3 a true c
  | .recockingAfterResetNocam a => selWord 0b111#3 a false false
  | .recockingAfterResetHold a => selWord 0b111#3 a false true

/-- The instruction in the first byte, and the bytes after it. A selector word stands in bits 5..0 of a
byte, the numbering of `spec/opcode_table.json` (notes/assumptions/15.md). -/
def decodeBytes : List Byte → Except DecodeError (Instr × List Byte)
  | [] => .error .noByte
  | b :: rest =>
    if b.extractLsb' 6 2 = 0#2 then
      match decode (b.extractLsb' 0 6) with
      | .ok i => .ok (i, rest)
      | .error e => .error e
    else .error .notSixBits

/-- The byte of an instruction: its selector word, bits 7 and 6 zero. -/
def encodeBytes (i : Instr) : List Byte := [0#2 ++ encode i]

/-- The host's question: the instruction of a table row's bits `w`, of which there are `nbits`. -/
def decodeTableWord (nbits w : Nat) : Option Instr :=
  let v := w % 2 ^ nbits
  if v < 256 then
    match decodeBytes [BitVec.ofNat 8 v] with
    | .ok (i, _) => some i
    | .error _ => none
  else none

end Sys2Proof
end

