-- ==== Sys2Proof/Machine/Regs.lean ====
section
/-! DEFINITION. The block's registers (10_state.md R20), the input sample of one edge (30_encoding.md
R50), and the reset values (R33). Both are written for every `TIME_W`, here `w`. -/

namespace Sys2Proof.Machine

/-- One debounce filter record `{stable, last, last_change_time}` (10_state.md R20, R21). The levels are
asserted levels (40_debounce_filter.md R70). -/
structure DebounceFilter (w : Nat) where
  /-- the debounced level the filter returns -/
  stable : Bool
  /-- the raw level seen at the most recent tick -/
  last : Bool
  /-- `last_change_time`: the value of `now` at the tick where `last` last changed -/
  lct : Instant w
  deriving DecidableEq, Repr

/-- "The complete state of the block is the following record. Nothing else is state" (R20). -/
structure Regs (w : Nat) where
  /-- `f[AF]` -/
  armFire : DebounceFilter w
  /-- `f[DA]` -/
  disarm : DebounceFilter w
  /-- `f[CS]` -/
  camSwitch : DebounceFilter w
  /-- the controller state; every code is legal, so it is held by its name (R23, R53) -/
  state : Ctrl
  /-- the diagnostic event strobe -/
  diagValid : Bool
  /-- the state code reported by the most recent diagnostic event -/
  diagState : Code
  /-- the raw cam_switch level reported by the most recent diagnostic event -/
  diagCamRaw : Bool
  deriving DecidableEq, Repr

/-- `f[i]` (R20). -/
def Regs.filter {w : Nat} (r : Regs w) : Chan → DebounceFilter w
  | .armFire => r.armFire
  | .disarm => r.disarm
  | .camSwitch => r.camSwitch

/-- The inputs of one rising edge of `clk` (30_encoding.md R50): all are sampled at that edge
(43_control_loop.md R132). Pins are pin levels, each an arbitrary Boolean (70_reset_and_hazards.md
R178). -/
structure Inputs (w : Nat) where
  rst : Bool
  now : Instant w
  armFirePin : Bool
  disarmPin : Bool
  camSwitchPin : Bool
  deriving DecidableEq, Repr

/-- The level of a channel's pin. -/
def Inputs.pin {w : Nat} (inp : Inputs w) : Chan → Bool
  | .armFire => inp.armFirePin
  | .disarm => inp.disarmPin
  | .camSwitch => inp.camSwitchPin

/-- The reset value of a filter: unasserted, `lct` 0 (R33, R172). -/
def DebounceFilter.reset (w : Nat) : DebounceFilter w := ⟨false, false, 0#w⟩

/-- The bootstrap state: COCKED if the raw `cam_switch_pin` is 1 at the reset edge, else IDLE
(70_reset_and_hazards.md R171). -/
def bootstrap (camSwitchPin : Bool) : Ctrl := if camSwitchPin then .cocked else .idle

/-- Every register at its reset value, for the given sample of `cam_switch_pin` (R33, R171 to R173). -/
def Regs.reset (w : Nat) (camSwitchPin : Bool) : Regs w where
  armFire := DebounceFilter.reset w
  disarm := DebounceFilter.reset w
  camSwitch := DebounceFilter.reset w
  state := bootstrap camSwitchPin
  diagValid := false
  diagState := 0#3
  diagCamRaw := false

end Sys2Proof.Machine
end

