-- ==== Sys2Proof/Machine/Servo.lean ====
section
/-! DEFINITION. The output decode: MAP (42_servo_mapper.md R120), the servo codes and pulse widths
(30_encoding.md R59), and the output equations of every port (43_control_loop.md R136). -/

namespace Sys2Proof.Machine

/-- MAP, `M(state)`: the servo command and the indicator level. It reads the state alone (R120 to R123,
R126). -/
def M : Ctrl → ServoCmd × Bool
  | .idle => (.neutral, false)
  | .cocking => (.forward, true)
  | .cocked => (.neutral, false)
  | .firing => (.forward, true)
  | .decocking => (.reverse, true)
  | .resetting => (.reverse, true)
  | .idleAfterReset => (.neutral, false)
  | .recockingAfterReset => (.forward, true)

/-- The 2-bit code of a command on `servo_cmd` (R59). -/
def servoCode : ServoCmd → BitVec 2
  | .reverse => 0b00#2
  | .neutral => 0b01#2
  | .forward => 0b10#2

/-- The pulse width of a command in µs, 11 bits (R59, R124). -/
def pulseUs : ServoCmd → BitVec 11
  | .reverse => 1000#11
  | .neutral => 1500#11
  | .forward => 2000#11

/-- The block's output ports (R50). -/
structure Outputs where
  stateO : Code
  servoCmd : BitVec 2
  servoPulseUs : BitVec 11
  indicator : Bool
  diagValid : Bool
  diagState : Code
  diagCamRaw : Bool
  deriving DecidableEq, Repr

/-- The output equations, combinational from the registers (R136): `state_o` and the servo ports from
`state`, the `diag_*` ports from the `diag_*_r` registers. -/
def Regs.outputs {w : Nat} (r : Regs w) : Outputs where
  stateO := r.state.code
  servoCmd := servoCode (M r.state).1
  servoPulseUs := pulseUs (M r.state).1
  indicator := (M r.state).2
  diagValid := r.diagValid
  diagState := r.diagState
  diagCamRaw := r.diagCamRaw

/-- What the diagnostic sink receives while `diag_valid` is high: the state code "zero-extended to
whatever width the sink uses" (R54), and the raw cam level. Outside that period there is no event
(43_control_loop.md R135). -/
def Outputs.event (n : Nat) (o : Outputs) : Option (BitVec n × Bool) :=
  if o.diagValid then some (o.diagState.setWidth n, o.diagCamRaw) else none

end Sys2Proof.Machine
end

