-- ==== Sys2Proof/Machine/State.lean ====
section
/-! DEFINITION. The machine's state as the host steps it: the block's registers, and beside them the
stimulus the environment has placed; and the reasons for which a step could stop. -/

namespace Sys2Proof.Machine

/-- The machine's state. `regs` is ALL the block's state (10_state.md R20). The other two fields are the
model's own: the inputs of the coming edges, which are no state of the block (R31) and which `step`
takes from here. -/
structure State where
  /-- the registers of the block -/
  regs : Regs Config.timeW
  /-- the stimulus trace not yet presented, one entry per clock edge (30_encoding.md R62;
  notes/assumptions/1.md) -/
  stim : List (Inputs Config.timeW)
  /-- how many edges have been taken: the argument of the free input samples that stand in for an empty
  `stim` (notes/assumptions/2.md) -/
  edges : Nat
  deriving DecidableEq, Repr

/-- No fault exists: "The block raises no exception" (60_exceptions.md R150; notes/assumptions/14.md).
Nothing raises one; safe. -/
inductive Fault where
  deriving DecidableEq, Repr

/-- Why a step gives no next state. -/
inductive Refusal where
  /-- An instruction without a meaning. Raised by no arm of `exec`; safe. -/
  | notModelled (mnemonic : String)
  /-- Raised by `step` where the decoder finds no row for the selector word. 30_encoding.md R57 says that
  there is no such word, so it is never raised; safe. -/
  | noRow
  deriving DecidableEq, Repr

/-- Right after a reset edge (70_reset_and_hazards.md R170, R175): the registers as R33 gives them, for a
bootstrap sample that is left free (notes/assumptions/4.md); no stimulus placed. -/
def State.reset : State where
  regs := Regs.reset Config.timeW Config.bootCamPin
  stim := []
  edges := 0

end Sys2Proof.Machine
end

