-- ==== Sys2Proof/Machine/Operands.lean ====
section
/-! DEFINITION. Operand decode: NORMALISE (40_debounce_filter.md R70) and the pin and asserted words
(30_encoding.md R51, R52). The block has no immediates and no other operand forms. -/

namespace Sys2Proof.Machine

/-- `ACTIVE_LOW[i]`: arm_fire and disarm are active-low, cam_switch is active-high (00_scope.md R8). -/
def activeLow : Chan → Bool
  | .armFire => true
  | .disarm => true
  | .camSwitch => false

/-- NORMALISE: `raw_i = pin_i ^ ACTIVE_LOW[i]`, the asserted level of a pin (R70). -/
def normalise (c : Chan) (pin : Bool) : Bool := pin ^^ activeLow c

/-- The level of an idle pin: the unasserted one (R51). -/
def idleLevel (c : Chan) : Bool := normalise c false

/-- The asserted level of a channel at an edge, before its filter (R70). -/
def Inputs.raw {w : Nat} (inp : Inputs w) (c : Chan) : Bool := normalise c (inp.pin c)

/-- The pin word `P = {arm_fire_pin, disarm_pin, cam_switch_pin}` (R52). -/
def Inputs.pinWord {w : Nat} (inp : Inputs w) : PinWord :=
  BitVec.ofBool inp.armFirePin ++ BitVec.ofBool inp.disarmPin ++ BitVec.ofBool inp.camSwitchPin

/-- The asserted word `A = {arm_fire, disarm, cam_switch}` (R52). -/
def Inputs.assertedWord {w : Nat} (inp : Inputs w) : PinWord :=
  BitVec.ofBool (inp.raw .armFire) ++ BitVec.ofBool (inp.raw .disarm) ++
    BitVec.ofBool (inp.raw .camSwitch)

/-- The inputs of a tick with a given pin word: `rst` = 0 (R62). -/
def Inputs.ofPins {w : Nat} (now : Instant w) (p : PinWord) : Inputs w where
  rst := false
  now := now
  armFirePin := p.getLsbD 2
  disarmPin := p.getLsbD 1
  camSwitchPin := p.getLsbD 0

/-- The inputs of a reset edge (R62: "other pins do not matter"). `now` and the other pins are given
values that no rule reads (notes/assumptions/13.md). -/
def Inputs.ofReset (w : Nat) (cam : Bool) : Inputs w where
  rst := true
  now := 0#w
  armFirePin := idleLevel .armFire
  disarmPin := idleLevel .disarm
  camSwitchPin := cam

end Sys2Proof.Machine
end

