-- ==== Sys2Proof/Machine/Flags.lean ====
section
/-! DEFINITION. The block has no status flags; "the three debounced values … are the only predicates any
rule branches on" (10_state.md R26). This file computes them: UPDATE (40_debounce_filter.md R71) and the
time comparison (R72). -/

namespace Sys2Proof.Machine

/-- `sub_TIME_W(a, b)`: the unsigned difference modulo `2^TIME_W` (00_scope.md R10, R72). -/
def subTime {w : Nat} (a b : Instant w) : Instant w := a - b

/-- `sub_TIME_W(now, lct) >u WINDOW`: strictly greater (R72, 90_conflicts.md C1). -/
def exceedsWindow {w : Nat} (window : Nat) (now lct : Instant w) : Bool :=
  decide (window < (subTime now lct).toNat)

/-- UPDATE, step 1: a raw level that differs from `last` is captured with its time (R71). -/
def DebounceFilter.capture {w : Nat} (f : DebounceFilter w) (raw : Bool) (now : Instant w) : DebounceFilter w :=
  if raw != f.last then ⟨f.stable, raw, now⟩ else f

/-- UPDATE, step 2: a pending level that has held for more than the window is accepted (R71). -/
def DebounceFilter.accept {w : Nat} (window : Nat) (f : DebounceFilter w) (now : Instant w) : DebounceFilter w :=
  if f.stable != f.last && exceedsWindow window now f.lct then ⟨f.last, f.last, f.lct⟩ else f

/-- UPDATE: the filter record after a tick. Its `stable` is the debounced value the operation returns,
which the same tick reads (R71, R74). -/
def DebounceFilter.update {w : Nat} (window : Nat) (f : DebounceFilter w) (raw : Bool) (now : Instant w) : DebounceFilter w :=
  (f.capture raw now).accept window now

/-- The filter of a channel after a tick with the given inputs: "UPDATE runs exactly once for each of the
three filters. All three see the same sampled `now`" (R75). -/
def Regs.filterAfter {w : Nat} (window : Nat) (r : Regs w) (inp : Inputs w) (c : Chan) : DebounceFilter w :=
  (r.filter c).update window (inp.raw c) inp.now

/-- The debounced value of a channel in a tick: what its filter's UPDATE of that tick returns (R74). -/
def Regs.debounced {w : Nat} (window : Nat) (r : Regs w) (inp : Inputs w) (c : Chan) : Bool :=
  (r.filterAfter window inp c).stable

/-- The selector word of a tick: `{state, f[AF].stable, f[DA].stable, f[CS].stable}`, with the filter
values as updated in that tick (30_encoding.md R55, 43_control_loop.md R133). -/
def Regs.selector {w : Nat} (window : Nat) (r : Regs w) (inp : Inputs w) : Sel :=
  selWord r.state.code (r.debounced window inp .armFire) (r.debounced window inp .disarm)
    (r.debounced window inp .camSwitch)

end Sys2Proof.Machine
end

