-- ==== Sys2Proof/Machine/Transition.lean ====
section
/-! DEFINITION. The transition function `T` as 41_transition_table.md R90 writes it: first matching guard
wins, unmatched stays. The machine itself runs by the rows (30_encoding.md R56); `T` is the form that
they are held against. -/

namespace Sys2Proof.Machine

/-- `T(state, arm_fire, disarm, cam_switch)`, guards in the source's order (R90). IDLE_AFTER_RESET,
DECOCKING and RESETTING have no disarm guard (R114). -/
def T (state : Ctrl) (armFire disarm camSwitch : Bool) : Ctrl :=
  match state with
  | .idle => if disarm then .resetting else if armFire then .cocking else .idle
  | .cocking => if disarm then .resetting else if camSwitch then .cocked else .cocking
  | .cocked => if disarm then .decocking else if armFire then .firing else .cocked
  | .firing => if disarm then .decocking else if !camSwitch then .cocking else .firing
  | .decocking => if !camSwitch then .resetting else .decocking
  | .resetting => if camSwitch then .idleAfterReset else .resetting
  | .idleAfterReset => if armFire then .recockingAfterReset else .idleAfterReset
  | .recockingAfterReset =>
    if disarm then .idleAfterReset else if !camSwitch then .cocking else .recockingAfterReset

end Sys2Proof.Machine
end

