-- ==== Sys2Proof/Machine/Ops.lean ====
section
/-! DEFINITION. The operations the rows and the step are built from: the tick to a given next state, the
reset edge, one edge in the words of 43_control_loop.md R131 and R139, and the input sample of an edge.
The block takes no exception and returns from none (60_exceptions.md R150, R153), so no operation for
either exists. -/

namespace Sys2Proof.Machine

/-- TICK from `next` on, with the filter updates committed at the same edge (43_control_loop.md R131):
the filters always, `state` and the diagnostic payload when the state changes, the strobe always (R134,
R135). -/
def Regs.tickTo {w : Nat} (window : Nat) (next : Ctrl) (r : Regs w) (inp : Inputs w) : Regs w where
  armFire := r.filterAfter window inp .armFire
  disarm := r.filterAfter window inp .disarm
  camSwitch := r.filterAfter window inp .camSwitch
  state := if next ≠ r.state then next else r.state
  diagValid := decide (next ≠ r.state)
  diagState := if next ≠ r.state then next.code else r.diagState
  diagCamRaw := if next ≠ r.state then inp.camSwitchPin else r.diagCamRaw

/-- TICK as R131 writes it, its next state by `T` over the debounced values of the tick (R133). -/
def Regs.tick {w : Nat} (window : Nat) (r : Regs w) (inp : Inputs w) : Regs w :=
  r.tickTo window
    (T r.state (r.debounced window inp .armFire) (r.debounced window inp .disarm)
      (r.debounced window inp .camSwitch)) inp

/-- One rising edge of `clk`, the step function of R139: a reset edge where `rst` = 1, which performs no
tick (70_reset_and_hazards.md R170), else a tick (R130). -/
def Regs.edge {w : Nat} (window : Nat) (r : Regs w) (inp : Inputs w) : Regs w :=
  if inp.rst then Regs.reset w inp.camSwitchPin else r.tick window inp

/-- The free input sample of an edge for which no stimulus is placed (notes/assumptions/2.md). -/
def freeInputs (edge : Nat) : Inputs Config.timeW where
  rst := Config.freeRst edge
  now := Config.freeNow edge
  armFirePin := Config.freePin .armFire edge
  disarmPin := Config.freePin .disarm edge
  camSwitchPin := Config.freePin .camSwitch edge

/-- The inputs sampled at the coming edge: the head of the stimulus, or a free sample
(notes/assumptions/1.md, 2.md). -/
def State.input (s : State) : Inputs Config.timeW :=
  match s.stim with
  | inp :: _ => inp
  | [] => freeInputs s.edges

/-- The selector word of the coming edge, should it be a tick (30_encoding.md R55). -/
def State.selector (s : State) : Sel := s.regs.selector Config.window s.input

/-- The state after an edge that leaves the registers at `r`: that edge's stimulus is used up. -/
def State.afterEdge (s : State) (r : Regs Config.timeW) : State where
  regs := r
  stim := s.stim.tail
  edges := s.edges + 1

/-- The tick of a row: the whole of TICK with that row's next state (41_transition_table.md: "The tick
writes `state <- next`"). Shared by the meanings of all rows. -/
def tickRow (next : Ctrl) (s : State) : Host.Outcome State Fault Refusal :=
  .next (s.afterEdge (s.regs.tickTo Config.window next s.input))

/-- A reset edge: every register takes its reset value, and no tick is performed (R170 to R173). -/
def resetEdge (s : State) : Host.Outcome State Fault Refusal :=
  .next (s.afterEdge (Regs.reset Config.timeW s.input.camSwitchPin))

end Sys2Proof.Machine
end

