-- ==== Sys2Proof/Machine/Cocked.lean ====
section
/-! DEFINITION. The meanings of the three rows of state COCKED (41_transition_table.md R99 to R101). -/

namespace Sys2Proof.Machine

/-- COCKED_DISARM (R99), guard `disarm`: the tick goes to DECOCKING, whatever
`armFire` and `camSwitch` are. -/
def execCockedDisarm (_armFire _camSwitch : Bool) (s : State) : Host.Outcome State Fault Refusal :=
  tickRow .decocking s

/-- COCKED_ARM (R100), guard `!disarm && arm_fire`: the tick goes to FIRING, whatever
`camSwitch` is. -/
def execCockedArm (_camSwitch : Bool) (s : State) : Host.Outcome State Fault Refusal :=
  tickRow .firing s

/-- COCKED_HOLD (R101), guard `!disarm && !arm_fire`: the tick goes to COCKED, whatever
`camSwitch` is. -/
def execCockedHold (_camSwitch : Bool) (s : State) : Host.Outcome State Fault Refusal :=
  tickRow .cocked s

end Sys2Proof.Machine
end

