-- ==== Sys2Proof/Machine/Cocking.lean ====
section
/-! DEFINITION. The meanings of the three rows of state COCKING (41_transition_table.md R96 to R98). -/

namespace Sys2Proof.Machine

/-- COCKING_DISARM (R96), guard `disarm`: the tick goes to RESETTING, whatever
`armFire` and `camSwitch` are. -/
def execCockingDisarm (_armFire _camSwitch : Bool) (s : State) : Host.Outcome State Fault Refusal :=
  tickRow .resetting s

/-- COCKING_CAM (R97), guard `!disarm && cam_switch`: the tick goes to COCKED, whatever
`armFire` is. -/
def execCockingCam (_armFire : Bool) (s : State) : Host.Outcome State Fault Refusal :=
  tickRow .cocked s

/-- COCKING_HOLD (R98), guard `!disarm && !cam_switch`: the tick goes to COCKING, whatever
`armFire` is. -/
def execCockingHold (_armFire : Bool) (s : State) : Host.Outcome State Fault Refusal :=
  tickRow .cocking s

end Sys2Proof.Machine
end

