-- ==== Sys2Proof/Machine/Decocking.lean ====
section
/-! DEFINITION. The meanings of the two rows of state DECOCKING (41_transition_table.md R105 to R106). -/

namespace Sys2Proof.Machine

/-- DECOCKING_NOCAM (R105), guard `!cam_switch`: the tick goes to RESETTING, whatever
`armFire` and `disarm` are. -/
def execDecockingNocam (_armFire _disarm : Bool) (s : State) : Host.Outcome State Fault Refusal :=
  tickRow .resetting s

/-- DECOCKING_HOLD (R106), guard `cam_switch`: the tick goes to DECOCKING, whatever
`armFire` and `disarm` are. -/
def execDecockingHold (_armFire _disarm : Bool) (s : State) : Host.Outcome State Fault Refusal :=
  tickRow .decocking s

end Sys2Proof.Machine
end

