-- ==== Sys2Proof/Machine/Firing.lean ====
section
/-! DEFINITION. The meanings of the three rows of state FIRING (41_transition_table.md R102 to R104). -/

namespace Sys2Proof.Machine

/-- FIRING_DISARM (R102), guard `disarm`: the tick goes to DECOCKING, whatever
`armFire` and `camSwitch` are. -/
def execFiringDisarm (_armFire _camSwitch : Bool) (s : State) : Host.Outcome State Fault Refusal :=
  tickRow .decocking s

/-- FIRING_NOCAM (R103), guard `!disarm && !cam_switch`: the tick goes to COCKING, whatever
`armFire` is. -/
def execFiringNocam (_armFire : Bool) (s : State) : Host.Outcome State Fault Refusal :=
  tickRow .cocking s

/-- FIRING_HOLD (R104), guard `!disarm && cam_switch`: the tick goes to FIRING, whatever
`armFire` is. -/
def execFiringHold (_armFire : Bool) (s : State) : Host.Outcome State Fault Refusal :=
  tickRow .firing s

end Sys2Proof.Machine
end

