-- ==== Sys2Proof/Machine/Idle.lean ====
section
/-! DEFINITION. The meanings of the three rows of state IDLE (41_transition_table.md R93 to R95). -/

namespace Sys2Proof.Machine

/-- IDLE_DISARM (R93), guard `disarm`: the tick goes to RESETTING, whatever
`armFire` and `camSwitch` are. -/
def execIdleDisarm (_armFire _camSwitch : Bool) (s : State) : Host.Outcome State Fault Refusal :=
  tickRow .resetting s

/-- IDLE_ARM (R94), guard `!disarm && arm_fire`: the tick goes to COCKING, whatever
`camSwitch` is. -/
def execIdleArm (_camSwitch : Bool) (s : State) : Host.Outcome State Fault Refusal :=
  tickRow .cocking s

/-- IDLE_HOLD (R95), guard `!disarm && !arm_fire`: the tick goes to IDLE, whatever
`camSwitch` is. -/
def execIdleHold (_camSwitch : Bool) (s : State) : Host.Outcome State Fault Refusal :=
  tickRow .idle s

end Sys2Proof.Machine
end

