-- ==== Sys2Proof/Machine/IdleAfterReset.lean ====
section
/-! DEFINITION. The meanings of the two rows of state IDLE_AFTER_RESET (41_transition_table.md R109 to R110). -/

namespace Sys2Proof.Machine

/-- IDLE_AFTER_RESET_ARM (R109), guard `arm_fire`: the tick goes to RECOCKING_AFTER_RESET, whatever
`disarm` and `camSwitch` are. -/
def execIdleAfterResetArm (_disarm _camSwitch : Bool) (s : State) : Host.Outcome State Fault Refusal :=
  tickRow .recockingAfterReset s

/-- IDLE_AFTER_RESET_HOLD (R110), guard `!arm_fire`: the tick goes to IDLE_AFTER_RESET, whatever
`disarm` and `camSwitch` are. -/
def execIdleAfterResetHold (_disarm _camSwitch : Bool) (s : State) : Host.Outcome State Fault Refusal :=
  tickRow .idleAfterReset s

end Sys2Proof.Machine
end

