-- ==== Sys2Proof/Machine/RecockingAfterReset.lean ====
section
/-! DEFINITION. The meanings of the three rows of state RECOCKING_AFTER_RESET (41_transition_table.md R111 to R113). -/

namespace Sys2Proof.Machine

/-- RECOCKING_AFTER_RESET_DISARM (R111), guard `disarm`: the tick goes to IDLE_AFTER_RESET, whatever
`armFire` and `camSwitch` are. -/
def execRecockingAfterResetDisarm (_armFire _camSwitch : Bool) (s : State) : Host.Outcome State Fault Refusal :=
  tickRow .idleAfterReset s

/-- RECOCKING_AFTER_RESET_NOCAM (R112), guard `!disarm && !cam_switch`: the tick goes to COCKING, whatever
`armFire` is. -/
def execRecockingAfterResetNocam (_armFire : Bool) (s : State) : Host.Outcome State Fault Refusal :=
  tickRow .cocking s

/-- RECOCKING_AFTER_RESET_HOLD (R113), guard `!disarm && cam_switch`: the tick goes to RECOCKING_AFTER_RESET, whatever
`armFire` is. -/
def execRecockingAfterResetHold (_armFire : Bool) (s : State) : Host.Outcome State Fault Refusal :=
  tickRow .recockingAfterReset s

end Sys2Proof.Machine
end

