-- ==== Sys2Proof/Machine/Resetting.lean ====
section
/-! DEFINITION. The meanings of the two rows of state RESETTING (41_transition_table.md R107 to R108). -/

namespace Sys2Proof.Machine

/-- RESETTING_CAM (R107), guard `cam_switch`: the tick goes to IDLE_AFTER_RESET, whatever
`armFire` and `disarm` are. -/
def execResettingCam (_armFire _disarm : Bool) (s : State) : Host.Outcome State Fault Refusal :=
  tickRow .idleAfterReset s

/-- RESETTING_HOLD (R108), guard `!cam_switch`: the tick goes to RESETTING, whatever
`armFire` and `disarm` are. -/
def execResettingHold (_armFire _disarm : Bool) (s : State) : Host.Outcome State Fault Refusal :=
  tickRow .resetting s

end Sys2Proof.Machine
end

