-- ==== Sys2Proof/Machine/Dispatch.lean ====
section
/-! DEFINITION. One arm per row of the transition table, each one call of that row's meaning. -/

namespace Sys2Proof.Machine

/-- What a row does at a tick (41_transition_table.md R93 to R113, 43_control_loop.md R131). -/
def exec (i : Instr) (s : State) : Host.Outcome State Fault Refusal :=
  match i with
  | .idleDisarm a c => Sys2Proof.Machine.execIdleDisarm a c s
  | .idleArm c => Sys2Proof.Machine.execIdleArm c s
  | .idleHold c => Sys2Proof.Machine.execIdleHold c s
  | .cockingDisarm a c => Sys2Proof.Machine.execCockingDisarm a c s
  | .cockingCam a => Sys2Proof.Machine.execCockingCam a s
  | .cockingHold a => Sys2Proof.Machine.execCockingHold a s
  | .cockedDisarm a c => Sys2Proof.Machine.execCockedDisarm a c s
  | .cockedArm c => Sys2Proof.Machine.execCockedArm c s
  | .cockedHold c => Sys2Proof.Machine.execCockedHold c s
  | .firingDisarm a c => Sys2Proof.Machine.execFiringDisarm a c s
  | .firingNocam a => Sys2Proof.Machine.execFiringNocam a s
  | .firingHold a => Sys2Proof.Machine.execFiringHold a s
  | .decockingNocam a d => Sys2Proof.Machine.execDecockingNocam a d s
  | .decockingHold a d => Sys2Proof.Machine.execDecockingHold a d s
  | .resettingCam a d => Sys2Proof.Machine.execResettingCam a d s
  | .resettingHold a d => Sys2Proof.Machine.execResettingHold a d s
  | .idleAfterResetArm d c => Sys2Proof.Machine.execIdleAfterResetArm d c s
  | .idleAfterResetHold d c => Sys2Proof.Machine.execIdleAfterResetHold d c s
  | .recockingAfterResetDisarm a c => Sys2Proof.Machine.execRecockingAfterResetDisarm a c s
  | .recockingAfterResetNocam a => Sys2Proof.Machine.execRecockingAfterResetNocam a s
  | .recockingAfterResetHold a => Sys2Proof.Machine.execRecockingAfterResetHold a s

end Sys2Proof.Machine
end

