-- ==== Sys2Proof/Machine/Stimulus.lean ====
section
/-! DEFINITION. The stimulus notation, the block's assembly language (30_encoding.md R62, R63). -/

namespace Sys2Proof.Machine

/-- The clock edges of one line: one for `reset` and `tick`, two for `settle`, whose second time is
computed modulo `2^TIME_W` (R62, R63). -/
def expandLine (w window : Nat) : TraceLine → List (Inputs w)
  | .reset cam => [Inputs.ofReset w cam]
  | .tick now p => [Inputs.ofPins (BitVec.ofNat w now) p]
  | .settle now p =>
    [Inputs.ofPins (BitVec.ofNat w now) p, Inputs.ofPins (BitVec.ofNat w (now + window + 1)) p]

/-- The edges of a whole trace, in order. "The trace is the whole program" (R62). -/
def expandTrace (w window : Nat) (t : List TraceLine) : List (Inputs w) :=
  t.flatMap (expandLine w window)

/-- The "encoding" of a tick: the pair `(now, P)` (R62). -/
def Inputs.encoding {w : Nat} (inp : Inputs w) : Instant w × PinWord := (inp.now, inp.pinWord)

end Sys2Proof.Machine
end

