-- ==== Sys2Proof/Machine/Edge.lean ====
section
/-! DEFINITION. What one rising edge of `clk` does: a reset edge, or the tick of the row that the selector
word picks; and how a selector word is put where the next edge takes its own from. `step` and
`State.withFetchWord` are these two under the host's names. -/

namespace Sys2Proof.Machine

/-- One rising edge of `clk`. With `rst` = 1 it is a reset edge, which comes before everything else
(60_exceptions.md R155); otherwise it is a tick, which runs the row that the selector word picks
(43_control_loop.md R131). -/
def runEdge (s : State) : Host.Outcome State Fault Refusal :=
  if s.input.rst then resetEdge s
  else
    match decode s.selector with
    | .ok i => exec i s
    | .error _ => .refused .noRow

/-- A filter that has settled at a level, its `lct` as it was: it returns that level at a tick that
samples it, whatever `now` is. -/
def DebounceFilter.settledAt {w : Nat} (f : DebounceFilter w) (level : Bool) : DebounceFilter w := ⟨level, level, f.lct⟩

/-- `s` with the selector word `w` where the next step takes its own from: the state register and the
filters at the word's fields, and a tick placed first whose pins show the same levels, so that every
filter returns its field (notes/assumptions/6.md). -/
def State.placeSelector (s : State) (nbits w : Nat) : State :=
  let sel : Sel := BitVec.ofNat 6 (w % 2 ^ nbits)
  { s with
    regs := { s.regs with
      armFire := s.regs.armFire.settledAt (selArmFire sel)
      disarm := s.regs.disarm.settledAt (selDisarm sel)
      camSwitch := s.regs.camSwitch.settledAt (selCamSwitch sel)
      state := Ctrl.ofCode (selState sel) }
    stim :=
      { rst := false
        now := 0#Config.timeW
        armFirePin := normalise .armFire (selArmFire sel)
        disarmPin := normalise .disarm (selDisarm sel)
        camSwitchPin := normalise .camSwitch (selCamSwitch sel) } :: s.stim }

end Sys2Proof.Machine
end

