-- ==== Sys2Proof/Machine/Step.lean ====
section
/-! DEFINITION. One step of the machine, and the host's way to put an instruction where the next step runs
it. -/

namespace Sys2Proof.Machine

/-- One step is one rising edge of `clk` (43_control_loop.md R130, 70_reset_and_hazards.md R170). -/
def step (s : State) : Host.Outcome State Fault Refusal := runEdge s

/-- `s` with the selector word `w` placed for the next step (notes/assumptions/6.md). -/
def State.withFetchWord (s : State) (nbits w : Nat) : State := s.placeSelector nbits w

end Sys2Proof.Machine
end

