-- ==== Sys2Proof/Safety.lean ====
section
/-! DEFINITION. The terms the statements use: runs of a filter and of the block over input samples, the
effect of a tick as a relation, what it says that a row runs as its rule gives it, the premise
`TimeMonotone`, and the invariants. -/

namespace Sys2Proof.Machine

/-- A filter run over the samples `(raw, now)` of successive ticks (40_debounce_filter.md R71). -/
def DebounceFilter.run {w : Nat} (window : Nat) (f : DebounceFilter w) (l : List (Bool × Instant w)) : DebounceFilter w :=
  l.foldl (fun g x => g.update window x.1 x.2) f

/-- The block run over the inputs of successive edges (43_control_loop.md R139). -/
def Regs.run {w : Nat} (window : Nat) (r : Regs w) (l : List (Inputs w)) : Regs w :=
  l.foldl (fun q inp => q.edge window inp) r

/-- The outputs after each edge of a run, in order. -/
def Regs.outputTrace {w : Nat} (window : Nat) (r : Regs w) : List (Inputs w) → List Outputs
  | [] => []
  | inp :: rest => (r.edge window inp).outputs :: (r.edge window inp).outputTrace window rest

/-- Nothing is pending: the raw level last seen is the debounced one. -/
abbrev DebounceFilter.Settled {w : Nat} (f : DebounceFilter w) : Prop := f.stable = f.last

/-- Every stretch of equal consecutive samples, from any of its ticks to any later one, spans at most the
window (40_debounce_filter.md R77; notes/assumptions/18.md). -/
def NoLongRun {w : Nat} (window : Nat) (l : List (Bool × Instant w)) : Prop :=
  ∀ pre a mid z post, l = pre ++ a :: mid ++ z :: post →
    (∀ x ∈ mid, x.1 = a.1) → z.1 = a.1 → (subTime z.2 a.2).toNat ≤ window

/-- The premise of 70_reset_and_hazards.md R179 over a stretch of ticks with the given true times: time
does not run backwards, and the stretch is shorter than `2^TIME_W` counts. `now` itself is the true time
modulo `2^TIME_W` (notes/assumptions/18.md). -/
def TimeMonotone (w : Nat) (trueTimes : List Nat) : Prop :=
  trueTimes.Pairwise (fun a b => a ≤ b ∧ b - a < 2 ^ w)

/-- The effect of a tick whose next state is `next`, register by register (43_control_loop.md R131): `t` is
the state after the edge. Its clauses settle every register of the block. -/
structure TickEffect (s : State) (next : Ctrl) (t : State) : Prop where
  filters : ∀ c, t.regs.filter c =
    (s.regs.filter c).update Config.window (normalise c (s.input.pin c)) s.input.now
  state : t.regs.state = next
  diagValid : t.regs.diagValid = decide (next ≠ s.regs.state)
  event : next ≠ s.regs.state →
    t.regs.diagState = next.code ∧ t.regs.diagCamRaw = s.input.camSwitchPin
  noEvent : next = s.regs.state →
    t.regs.diagState = s.regs.diagState ∧ t.regs.diagCamRaw = s.regs.diagCamRaw

/-- What a row rule of 41_transition_table.md says of a row `i`: its mask and match pick exactly the words
of the state `cur` under the guard; and at a tick whose selector word they pick, the row runs, with the
effect of a tick to `next`, and the servo command goes from `before` to `after`. -/
def RowRule (i : Instr) (mask pattern : Sel) (cur : Ctrl) (guard : Bool → Bool → Bool → Bool)
    (next : Ctrl) (before after : ServoCmd) : Prop :=
  ∀ s : State, s.input.rst = false →
    ((s.selector &&& mask = pattern) ↔
      (s.regs.state = cur ∧
        guard (s.regs.debounced Config.window s.input .armFire)
          (s.regs.debounced Config.window s.input .disarm)
          (s.regs.debounced Config.window s.input .camSwitch) = true)) ∧
    (s.selector &&& mask = pattern →
      ∃ t, exec i s = .next t ∧ step s = .next t ∧ TickEffect s next t ∧
        s.regs.outputs.servoCmd = servoCode before ∧ t.regs.outputs.servoCmd = servoCode after)

/-- No event since the last reset edge: the diagnostic registers are as reset left them, and `state` is a
bootstrap state. -/
abbrev Regs.NoEventYet {w : Nat} (r : Regs w) : Prop :=
  (r.state = .idle ∨ r.state = .cocked) ∧
    r.diagValid = false ∧ r.diagState = 0#3 ∧ r.diagCamRaw = false

/-- The diagnostic registers tell the truth: either no event has happened since the last reset edge, or
`diag_state_r` is the code of the present state, and that is not IDLE, which no transition enters
(41_transition_table.md R116, 43_control_loop.md R135). -/
abbrev Regs.DiagTruthful {w : Nat} (r : Regs w) : Prop :=
  r.NoEventYet ∨ (r.diagState = r.state.code ∧ r.state ≠ .idle)

/-- The 13 edges of the transition graph (41_transition_table.md R116). -/
def transitionEdges : List (Ctrl × Ctrl) :=
  [ (.idle, .resetting), (.idle, .cocking),
    (.cocking, .resetting), (.cocking, .cocked),
    (.cocked, .decocking), (.cocked, .firing),
    (.firing, .decocking), (.firing, .cocking),
    (.decocking, .resetting),
    (.resetting, .idleAfterReset),
    (.idleAfterReset, .recockingAfterReset),
    (.recockingAfterReset, .idleAfterReset), (.recockingAfterReset, .cocking) ]

/-- A filter with its levels exchanged: the record a filter of pin levels would hold for an active-low
pin (40_debounce_filter.md R70). -/
def DebounceFilter.inverted {w : Nat} (f : DebounceFilter w) : DebounceFilter w := ⟨!f.stable, !f.last, f.lct⟩

/-- The filter record with another `last_change_time`. -/
def DebounceFilter.withLct {w : Nat} (f : DebounceFilter w) (t : Instant w) : DebounceFilter w := ⟨f.stable, f.last, t⟩

/-- The registers with every stored time moved by `d` counts, modulo `2^TIME_W`. -/
def Regs.shiftTime {w : Nat} (r : Regs w) (d : Instant w) : Regs w :=
  { r with
    armFire := r.armFire.withLct (r.armFire.lct + d)
    disarm := r.disarm.withLct (r.disarm.lct + d)
    camSwitch := r.camSwitch.withLct (r.camSwitch.lct + d) }

/-- The inputs of an edge with `now` moved by `d` counts, modulo `2^TIME_W`. -/
def Inputs.shiftTime {w : Nat} (inp : Inputs w) (d : Instant w) : Inputs w :=
  { inp with now := inp.now + d }

end Sys2Proof.Machine
end

