-- ==== Sys2Proof/Certificates/Slice0/Obligations.lean ====
section
/-! DEFINITION. The statements for the provers. Each docstring names the rule of spec/ it formalises, or
the sentence or log entry it rests on. -/

open Sys2Proof Sys2Proof.Machine

-- Decoding and encoding

/-- Derived from 30_encoding.md R55 and R56: decoding the word of a row's instruction, alone or as the
first byte of any bytes, gives that instruction back with every operand, and a word is the encoding of
what it decodes to. The byte form is the model's (notes/assumptions/15.md). -/
def Obligations.DecodeAndEncodeAgree : Prop :=
  (∀ i : Instr, i.wellFormed = true → decode (encode i) = .ok i) ∧
  (∀ (i : Instr) (rest : List Byte), i.wellFormed = true →
    decodeBytes (encodeBytes i ++ rest) = .ok (i, rest)) ∧
  (∀ (w : Sel) (i : Instr), decode w = .ok i → i.wellFormed = true ∧ encode i = w)

/-- R57: all 64 selector words are legal, and decoding one never faults; each is in exactly one of the 21
rows, and every state code is a state with a defined next state for every combination of inputs. -/
def Obligations.EverySelectorWordIsInExactlyOneRow : Prop :=
  opcodeMap.length = 21 ∧
  ∀ w : Sel, (opcodeMap.filter (fun r => r.hits w)).length = 1 ∧
    (∃ c : Ctrl, c.code = selState w) ∧
    ∃ i, decode w = .ok i ∧ i.row ∈ opcodeMap ∧ i.row.hits w = true

/-- Sanity, from the examples of 41_transition_table.md R93, R97, R100, R103, R106, R107, R109 and R111:
words written out bit by bit decode to the row the spec names. -/
def Obligations.ExampleWordsDecodeToTheirRows : Prop :=
  decode 0b000111#6 = .ok (.idleDisarm true true) ∧
  decode 0b001101#6 = .ok (.cockingCam true) ∧
  decode 0b010101#6 = .ok (.cockedArm true) ∧
  decode 0b011100#6 = .ok (.firingNocam true) ∧
  decode 0b100111#6 = .ok (.decockingHold true true) ∧
  decode 0b101111#6 = .ok (.resettingCam true true) ∧
  decode 0b110111#6 = .ok (.idleAfterResetArm true true) ∧
  decode 0b111111#6 = .ok (.recockingAfterResetDisarm true true)

/-- Derived from 30_encoding.md R56 and 41_transition_table.md R90 (the cross-check at the end of
90_conflicts.md): on every selector word, the next state of the disjoint row is that of the
first-matching-guard form. -/
def Obligations.DisjointRowsAgreeWithFirstMatchForm : Prop :=
  ∀ (w : Sel) (i : Instr), decode w = .ok i →
    i.row.next = T (Ctrl.ofCode (selState w)) (selArmFire w) (selDisarm w) (selCamSwitch w)

/-- R53: the code of each state; and (10_state.md R23) every bit pattern is the code of exactly one
state. -/
def Obligations.StateCodesAreInListingOrder : Prop :=
  [Ctrl.idle, .cocking, .cocked, .firing, .decocking, .resetting, .idleAfterReset,
      .recockingAfterReset].map (fun c => c.code.toNat) = [0, 1, 2, 3, 4, 5, 6, 7] ∧
  (∀ c : Ctrl, Ctrl.ofCode c.code = c) ∧
  (∀ x : Code, (Ctrl.ofCode x).code = x)

/-- R55: `sel = {state, f[AF].stable, f[DA].stable, f[CS].stable}`, state in bits 5:3, arm_fire in bit 2,
disarm in bit 1, cam_switch in bit 0, with the filter values as updated in the current tick. -/
def Obligations.SelectorHoldsStateAndUpdatedLevels : Prop :=
  ∀ (w window : Nat) (r : Regs w) (inp : Inputs w),
    let sel := r.selector window inp
    sel.extractLsb' 3 3 = r.state.code ∧
    sel.getLsbD 2 = (r.armFire.update window (!inp.armFirePin) inp.now).stable ∧
    sel.getLsbD 1 = (r.disarm.update window (!inp.disarmPin) inp.now).stable ∧
    sel.getLsbD 0 = (r.camSwitch.update window inp.camSwitchPin inp.now).stable

/-- Derived from 30_encoding.md R62: a tick line is the pair `(now, P)`, and no input of a tick is lost in
it. -/
def Obligations.TickIsThePairOfNowAndPinWord : Prop :=
  ∀ w : Nat,
    (∀ (now : Instant w) (p : PinWord), (Inputs.ofPins now p).encoding = (now, p)) ∧
    (∀ inp : Inputs w, inp.rst = false → Inputs.ofPins inp.encoding.1 inp.encoding.2 = inp)

-- Parameters, operands and the filter

/-- Derived from 00_scope.md R8, `0 < WINDOW < 2^TIME_W`: the model's open timing (notes/assumptions/3.md)
is a legal one, and its window is no other number. -/
def Obligations.OpenTimingIsLegal : Prop :=
  0 < Config.window ∧ Config.window < 2 ^ Config.timeW

/-- R51: arm_fire and disarm are asserted when low and idle high, cam_switch is asserted when high and
idle low; the idle level is the unasserted one. -/
def Obligations.PinsAreAssertedAtTheirPolarity : Prop :=
  (∀ pin, (normalise .armFire pin = true ↔ pin = false)) ∧
  (∀ pin, (normalise .disarm pin = true ↔ pin = false)) ∧
  (∀ pin, (normalise .camSwitch pin = true ↔ pin = true)) ∧
  idleLevel .armFire = true ∧ idleLevel .disarm = true ∧ idleLevel .camSwitch = false ∧
  (∀ c, normalise c (idleLevel c) = false)

/-- Derived from 30_encoding.md R52: `A = P ^ 0b110`. -/
def Obligations.AssertedWordIsPinWordXor : Prop :=
  ∀ (w : Nat) (inp : Inputs w), inp.assertedWord = inp.pinWord ^^^ 0b110#3

/-- Derived from the last paragraph of 40_debounce_filter.md R70 ("Placing the inversion after the filter,
with the filter's reset value inverted, gives the same outputs at every tick"): a filter of the inverted
level, started inverted, is at every tick the inverse of the filter. -/
def Obligations.PolarityMayStandAfterTheFilter : Prop :=
  ∀ (w window : Nat) (f : DebounceFilter w) (l : List (Bool × Instant w)),
    f.inverted.run window (l.map (fun x => (!x.1, x.2))) = (f.run window l).inverted

/-- R71: UPDATE captures, then accepts, in the words of its pseudocode. -/
def Obligations.UpdateCapturesThenAccepts : Prop :=
  ∀ (w window : Nat) (f : DebounceFilter w) (raw : Bool) (now : Instant w),
    let last1 := if raw ≠ f.last then raw else f.last
    let lct1 := if raw ≠ f.last then now else f.lct
    let elapsed := (now - lct1).toNat
    let stable1 := if f.stable ≠ last1 ∧ window < elapsed then last1 else f.stable
    f.update window raw now = ⟨stable1, last1, lct1⟩

/-- R72: the comparison is of the unsigned difference modulo `2^TIME_W`, strictly greater: a difference of
exactly the window is not enough, one count more is (where the width holds it). -/
def Obligations.WindowComparisonIsModularAndStrict : Prop :=
  ∀ (w window : Nat) (now lct : Instant w),
    (exceedsWindow window now lct = true ↔
      window < (now.toNat + 2 ^ w - lct.toNat) % 2 ^ w) ∧
    exceedsWindow window (lct + BitVec.ofNat w window) lct = false ∧
    (window + 1 < 2 ^ w → exceedsWindow window (lct + BitVec.ofNat w (window + 1)) lct = true)

/-- R22: the filters are independent. What a step makes of one filter is settled by that filter's own
record, its own pin, `now` and `rst`. -/
def Obligations.FiltersAreIndependent : Prop :=
  ∀ (c : Chan) (s₁ s₂ t₁ t₂ : State),
    step s₁ = .next t₁ → step s₂ = .next t₂ →
    s₁.input.rst = s₂.input.rst → s₁.regs.filter c = s₂.regs.filter c →
    s₁.input.pin c = s₂.input.pin c → s₁.input.now = s₂.input.now →
    t₁.regs.filter c = t₂.regs.filter c

/-- Derived from 40_debounce_filter.md R73 (an inference of the spec from R71): `stable` changes only in a
tick that samples the level already in `last`, after more than the window, and `last` and `lct` stay. -/
def Obligations.StableChangesOnlyToAHeldLevel : Prop :=
  ∀ (w window : Nat) (f : DebounceFilter w) (raw : Bool) (now : Instant w),
    (f.update window raw now).stable ≠ f.stable →
      raw = f.last ∧ window < (subTime now f.lct).toNat ∧
        f.update window raw now = ⟨raw, f.last, f.lct⟩

/-- Derived from 40_debounce_filter.md R76 (an inference of the spec): from a settled filter, if `stable`
changes at a tick `x`, then `last` took the new level at an earlier tick `a`, every tick from `a` to `x`
sampled that level, and the time between them exceeds the window. -/
def Obligations.StableChangeNeedsALevelHeldPastTheWindow : Prop :=
  ∀ (w window : Nat) (f : DebounceFilter w) (l : List (Bool × Instant w)) (x : Bool × Instant w),
    f.Settled → (f.run window (l ++ [x])).stable ≠ (f.run window l).stable →
      (f.run window (l ++ [x])).stable = x.1 ∧
      ∃ pre a mid, l = pre ++ a :: mid ∧ (f.run window pre).last ≠ a.1 ∧ a.1 = x.1 ∧
        (∀ y ∈ mid, y.1 = x.1) ∧ window < (subTime x.2 a.2).toNat

/-- Derived from 40_debounce_filter.md R77 (an inference of the spec; how a run is measured is
notes/assumptions/18.md): over a stretch with no long run, which nothing pending precedes or whose first
sample is a change, `stable` does not change. -/
def Obligations.GlitchesNeverChangeStable : Prop :=
  ∀ (w window : Nat) (f : DebounceFilter w) (l : List (Bool × Instant w)),
    (f.Settled ∨ ∀ x ∈ l.head?, x.1 ≠ f.last) → NoLongRun window l →
      (f.run window l).stable = f.stable

/-- Derived from 40_debounce_filter.md R78 (an inference of the spec): a level that comes at a tick `k` and
then stays is accepted at the first later tick whose difference from `k` exceeds the window, and at no
earlier one; a level that equals `stable` changes nothing. -/
def Obligations.HeldLevelIsAcceptedAtTheFirstTickPastTheWindow : Prop :=
  ∀ (w window : Nat) (f : DebounceFilter w) (v : Bool) (nowK : Instant w) (l : List (Bool × Instant w)),
    f.last ≠ v → (∀ x ∈ l, x.1 = v) →
      (f.stable ≠ v →
        ((f.run window ((v, nowK) :: l)).stable = v ↔
          ∃ x ∈ l, window < (subTime x.2 nowK).toNat)) ∧
      (f.stable = v → (f.run window ((v, nowK) :: l)).stable = v)

/-- Derived from 70_reset_and_hazards.md R179 and 40_debounce_filter.md R78 (notes/assumptions/18.md): under
`TimeMonotone`, the wrapped difference is the elapsed true time, so a held level is accepted exactly when a
tick comes more than the window after the tick that saw it, in true time. -/
def Obligations.AcceptanceMeasuresTrueTimeUnderTimeMonotone : Prop :=
  ∀ (w window : Nat) (f : DebounceFilter w) (v : Bool) (timeK : Nat) (times : List Nat),
    f.last ≠ v → f.stable ≠ v → TimeMonotone w (timeK :: times) →
      ((f.run window ((timeK :: times).map (fun τ => (v, BitVec.ofNat w τ)))).stable = v ↔
        ∃ τ ∈ times, window < τ - timeK)

/-- Derived from 30_encoding.md R61 and 70_reset_and_hazards.md R180 ("Crossing the wrap point is
harmless"): moving every time by the same count, wrap and all, changes nothing else in a tick. -/
def Obligations.TickComparesTimesOnlyByDifference : Prop :=
  ∀ (w window : Nat) (r : Regs w) (inp : Inputs w) (d : Instant w),
    (r.shiftTime d).tick window (inp.shiftTime d) = (r.tick window inp).shiftTime d

-- The rows

/-- R93, R94, R95: the rows of IDLE. -/
def Obligations.IdleRowsRunAsTheirRulesSay : Prop :=
  (∀ a c, RowRule (.idleDisarm a c) 0x3A#6 0x02#6 .idle (fun _ da _ => da)
    .resetting .neutral .reverse) ∧
  (∀ c, RowRule (.idleArm c) 0x3E#6 0x04#6 .idle (fun af da _ => !da && af)
    .cocking .neutral .forward) ∧
  (∀ c, RowRule (.idleHold c) 0x3E#6 0x00#6 .idle (fun af da _ => !da && !af)
    .idle .neutral .neutral)

/-- R96, R97, R98: the rows of COCKING. -/
def Obligations.CockingRowsRunAsTheirRulesSay : Prop :=
  (∀ a c, RowRule (.cockingDisarm a c) 0x3A#6 0x0A#6 .cocking (fun _ da _ => da)
    .resetting .forward .reverse) ∧
  (∀ a, RowRule (.cockingCam a) 0x3B#6 0x09#6 .cocking (fun _ da cs => !da && cs)
    .cocked .forward .neutral) ∧
  (∀ a, RowRule (.cockingHold a) 0x3B#6 0x08#6 .cocking (fun _ da cs => !da && !cs)
    .cocking .forward .forward)

/-- R99, R100, R101: the rows of COCKED. -/
def Obligations.CockedRowsRunAsTheirRulesSay : Prop :=
  (∀ a c, RowRule (.cockedDisarm a c) 0x3A#6 0x12#6 .cocked (fun _ da _ => da)
    .decocking .neutral .reverse) ∧
  (∀ c, RowRule (.cockedArm c) 0x3E#6 0x14#6 .cocked (fun af da _ => !da && af)
    .firing .neutral .forward) ∧
  (∀ c, RowRule (.cockedHold c) 0x3E#6 0x10#6 .cocked (fun af da _ => !da && !af)
    .cocked .neutral .neutral)

/-- R102, R103, R104: the rows of FIRING. -/
def Obligations.FiringRowsRunAsTheirRulesSay : Prop :=
  (∀ a c, RowRule (.firingDisarm a c) 0x3A#6 0x1A#6 .firing (fun _ da _ => da)
    .decocking .forward .reverse) ∧
  (∀ a, RowRule (.firingNocam a) 0x3B#6 0x18#6 .firing (fun _ da cs => !da && !cs)
    .cocking .forward .forward) ∧
  (∀ a, RowRule (.firingHold a) 0x3B#6 0x19#6 .firing (fun _ da cs => !da && cs)
    .firing .forward .forward)

/-- R105, R106: the rows of DECOCKING. -/
def Obligations.DecockingRowsRunAsTheirRulesSay : Prop :=
  (∀ a d, RowRule (.decockingNocam a d) 0x39#6 0x20#6 .decocking (fun _ _ cs => !cs)
    .resetting .reverse .reverse) ∧
  (∀ a d, RowRule (.decockingHold a d) 0x39#6 0x21#6 .decocking (fun _ _ cs => cs)
    .decocking .reverse .reverse)

/-- R107, R108: the rows of RESETTING. -/
def Obligations.ResettingRowsRunAsTheirRulesSay : Prop :=
  (∀ a d, RowRule (.resettingCam a d) 0x39#6 0x29#6 .resetting (fun _ _ cs => cs)
    .idleAfterReset .reverse .neutral) ∧
  (∀ a d, RowRule (.resettingHold a d) 0x39#6 0x28#6 .resetting (fun _ _ cs => !cs)
    .resetting .reverse .reverse)

/-- R109, R110: the rows of IDLE_AFTER_RESET. -/
def Obligations.IdleAfterResetRowsRunAsTheirRulesSay : Prop :=
  (∀ d c, RowRule (.idleAfterResetArm d c) 0x3C#6 0x34#6 .idleAfterReset (fun af _ _ => af)
    .recockingAfterReset .neutral .forward) ∧
  (∀ d c, RowRule (.idleAfterResetHold d c) 0x3C#6 0x30#6 .idleAfterReset (fun af _ _ => !af)
    .idleAfterReset .neutral .neutral)

/-- R111, R112, R113: the rows of RECOCKING_AFTER_RESET. -/
def Obligations.RecockingAfterResetRowsRunAsTheirRulesSay : Prop :=
  (∀ a c, RowRule (.recockingAfterResetDisarm a c) 0x3A#6 0x3A#6 .recockingAfterReset
    (fun _ da _ => da) .idleAfterReset .forward .neutral) ∧
  (∀ a, RowRule (.recockingAfterResetNocam a) 0x3B#6 0x38#6 .recockingAfterReset
    (fun _ da cs => !da && !cs) .cocking .forward .forward) ∧
  (∀ a, RowRule (.recockingAfterResetHold a) 0x3B#6 0x39#6 .recockingAfterReset
    (fun _ da cs => !da && cs) .recockingAfterReset .forward .forward)

/-- R114: IDLE_AFTER_RESET, DECOCKING and RESETTING have no disarm guard. At a tick, whatever the debounced
disarm is, only arm_fire leaves the first, to RECOCKING_AFTER_RESET, and cam_switch alone decides the other
two. -/
def Obligations.ThreeStatesHaveNoDisarmGuard : Prop :=
  ∀ s t : State, s.input.rst = false → step s = .next t →
    (s.regs.state = .idleAfterReset → t.regs.state =
      if s.regs.debounced Config.window s.input .armFire then .recockingAfterReset
      else .idleAfterReset) ∧
    (s.regs.state = .decocking → t.regs.state =
      if s.regs.debounced Config.window s.input .camSwitch then .decocking else .resetting) ∧
    (s.regs.state = .resetting → t.regs.state =
      if s.regs.debounced Config.window s.input .camSwitch then .idleAfterReset else .resetting)

/-- Derived from 41_transition_table.md R115 (an inference of the spec): in the five other states an asserted
debounced disarm leaves the state, whatever arm_fire and cam_switch are. -/
def Obligations.DisarmComesFirstWhereItIsChecked : Prop :=
  ∀ s : State, s.input.rst = false →
    s.regs.debounced Config.window s.input .disarm = true →
    ∃ t, step s = .next t ∧
      (s.regs.state = .idle ∨ s.regs.state = .cocking → t.regs.state = .resetting) ∧
      (s.regs.state = .cocked ∨ s.regs.state = .firing → t.regs.state = .decocking) ∧
      (s.regs.state = .recockingAfterReset → t.regs.state = .idleAfterReset)

/-- Derived from 41_transition_table.md R116 (an inference of the spec): the 13 edges are exactly the changes
that a tick can make. Each is made by some tick, and no tick makes another. -/
def Obligations.TicksMakeExactlyTheThirteenTransitions : Prop :=
  (∀ s t : State, s.input.rst = false → step s = .next t → t.regs.state ≠ s.regs.state →
    (s.regs.state, t.regs.state) ∈ transitionEdges) ∧
  (∀ p ∈ transitionEdges, ∃ s t : State, s.input.rst = false ∧ step s = .next t ∧
    s.regs.state = p.1 ∧ t.regs.state = p.2)

/-- Derived from 41_transition_table.md R116 ("No edge enters IDLE, so IDLE is reached only by reset"). -/
def Obligations.IdleIsEnteredOnlyByReset : Prop :=
  ∀ s t : State, step s = .next t → t.regs.state = .idle →
    s.regs.state = .idle ∨ (s.input.rst = true ∧ s.input.camSwitchPin = false)

/-- Derived from 41_transition_table.md R116 ("All 8 states are reachable from the bootstrap state IDLE. From
the bootstrap state COCKED, every state except IDLE is reachable."): by ticks alone, for every legal time base
in which a level can be accepted at all (notes/assumptions/3.md). -/
def Obligations.EveryStateIsReachableFromTheBootstrapStates : Prop :=
  ∀ w window : Nat, 0 < window → window + 1 < 2 ^ w → ∀ (cam : Bool) (c : Ctrl),
    (∃ l : List (Inputs w), (∀ inp ∈ l, inp.rst = false) ∧
      ((Regs.reset w cam).run window l).state = c) ↔
    (cam = true → c ≠ .idle)

-- The tick, the step and the diagnostic

/-- R131: at an edge with `rst` = 0, the step is TICK, every register written as its pseudocode writes
it. -/
def Obligations.StepOutsideResetIsTheTick : Prop :=
  ∀ s : State, s.input.rst = false →
    let inp := s.input
    let fAF := s.regs.armFire.update Config.window (inp.armFirePin ^^ true) inp.now
    let fDA := s.regs.disarm.update Config.window (inp.disarmPin ^^ true) inp.now
    let fCS := s.regs.camSwitch.update Config.window (inp.camSwitchPin ^^ false) inp.now
    let next := T s.regs.state fAF.stable fDA.stable fCS.stable
    ∃ t, step s = .next t ∧
      t.regs =
        { armFire := fAF
          disarm := fDA
          camSwitch := fCS
          state := next
          diagValid := decide (next ≠ s.regs.state)
          diagState := if next ≠ s.regs.state then next.code else s.regs.diagState
          diagCamRaw := if next ≠ s.regs.state then inp.camSwitchPin else s.regs.diagCamRaw }

/-- Derived from 30_encoding.md R55 to R57 and 43_control_loop.md R131: at an edge with `rst` = 0, where the
selector word decodes to an instruction, the step is that instruction run at the present state, and nothing is
added around it. -/
def Obligations.StepRunsTheDecodedRow : Prop :=
  ∀ (s : State) (i : Instr), s.input.rst = false → decode s.selector = .ok i →
    i.wellFormed = true → step s = exec i s

/-- Derived from 60_exceptions.md section 1 ("No operation of the block has a fault case") and 43_control_loop.md
("TICK is total and deterministic"): every step answers a next state. That none is refused rests on the model's
types of faults and refusals (notes/assumptions/14.md). The second clause, `exec` of a row at every state, also
where the selector word does not match it, is the model's choice (notes/assumptions/7.md). -/
def Obligations.NoStepFaultsOrRefuses : Prop :=
  (∀ s : State, ∃ t, step s = .next t) ∧ (∀ (i : Instr) (s : State), ∃ t, exec i s = .next t)

/-- Derived from 43_control_loop.md (TICK, and the step function of its last rule), 70_reset_and_hazards.md
section 1 (the reset edge) and 10_state.md section 5 (the reset values): the step is the function of `(state, rst,
now, arm_fire_pin, disarm_pin, cam_switch_pin)` that they give, and nothing else. That `diag_state_r` and
`diag_cam_raw_r` take 0 at a reset edge, where the diagnostic rule of 43_control_loop.md lets them keep their
values, is the model's reading (notes/assumptions/9.md). The stimulus and the edge count in `afterEdge` are the
model's choice (notes/assumptions/1.md, 2.md). -/
def Obligations.StepIsTheEdgeFunction : Prop :=
  ∀ s : State, step s = .next (s.afterEdge (s.regs.edge Config.window s.input))

/-- The model's choice (notes/assumptions/1.md, 2.md), derived from 43_control_loop.md R132, by which a tick
samples its inputs once: every row and every step uses up one edge of the stimulus, and the machine's other
fields beside the registers are the count of edges alone. -/
def Obligations.EveryRowAndStepUsesUpOneEdge : Prop :=
  (∀ (i : Instr) (s t : State), exec i s = .next t → t.stim = s.stim.tail ∧ t.edges = s.edges + 1) ∧
  (∀ s t : State, step s = .next t → t.stim = s.stim.tail ∧ t.edges = s.edges + 1)

/-- Derived from 20_memory.md R46 ("The execution is the sequence of ticks in clock order"): the machine run
over a placed stimulus presents its edges in order, each to the registers the one before it left, and leaves the
rest of the stimulus in place. The stimulus in State is the model's (notes/assumptions/1.md); at an edge with
`rst` = 1 inside it the payload registers of the diagnostic take 0 by the model's reading
(notes/assumptions/9.md). -/
def Obligations.PlacedStimulusRunsEdgeByEdge : Prop :=
  ∀ (r : Regs Config.timeW) (ins rest : List (Inputs Config.timeW)) (n : Nat),
    Host.Core.run Sys2Proof.core ins.length (State.mk r (ins ++ rest) n) =
      .next (State.mk (r.run Config.window ins) rest (n + ins.length))

/-- R24 ("may change only via the transition rule defined in §4.2, never arbitrarily"): the only writes to
`state` are the reset write and the tick write. -/
def Obligations.StateIsWrittenOnlyByResetAndTick : Prop :=
  ∀ s t : State, step s = .next t →
    t.regs.state =
      if s.input.rst then (if s.input.camSwitchPin then .cocked else .idle)
      else T s.regs.state (s.regs.debounced Config.window s.input .armFire)
        (s.regs.debounced Config.window s.input .disarm)
        (s.regs.debounced Config.window s.input .camSwitch)

/-- R54, with R135's event at every state change: a sink of any width from 3 bits on receives the code of the
new state as a number, and the raw cam level of that tick; at any other edge it receives nothing. -/
def Obligations.SinkReceivesTheCodeOfEveryNewState : Prop :=
  ∀ (s t : State) (n : Nat), 3 ≤ n → step s = .next t →
    (s.input.rst = false ∧ t.regs.state ≠ s.regs.state →
      ∃ v, t.regs.outputs.event n = some (v, s.input.camSwitchPin) ∧
        v.toNat = t.regs.state.code.toNat) ∧
    (s.input.rst = true ∨ t.regs.state = s.regs.state → t.regs.outputs.event n = none)

/-- Derived from 43_control_loop.md R135, whose words on the reset edge R173 overrides
(notes/assumptions/9.md): at a tick the strobe tells whether the state changed, and the payload registers are
written at a change and hold otherwise. -/
def Obligations.DiagnosticIsWrittenExactlyOnAChange : Prop :=
  ∀ s t : State, s.input.rst = false → step s = .next t →
    (t.regs.diagValid = true ↔ t.regs.state ≠ s.regs.state) ∧
    (t.regs.state ≠ s.regs.state →
      t.regs.diagState = t.regs.state.code ∧ t.regs.diagCamRaw = s.input.camSwitchPin) ∧
    (t.regs.state = s.regs.state →
      t.regs.diagState = s.regs.diagState ∧ t.regs.diagCamRaw = s.regs.diagCamRaw)

/-- Derived from 43_control_loop.md R138 ("No rule reads a `diag_*` register except the port equations of rule
R136"): whatever the diagnostic registers hold, a run leaves the filters and the state the same. -/
def Obligations.DiagnosticRegistersInfluenceNothingElse : Prop :=
  ∀ (w window : Nat) (r : Regs w) (v : Bool) (d : Code) (c : Bool) (l : List (Inputs w)),
    let r' := { r with diagValid := v, diagState := d, diagCamRaw := c }
    (r'.run window l).state = (r.run window l).state ∧
    ∀ ch, (r'.run window l).filter ch = (r.run window l).filter ch

/-- Derived from 41_transition_table.md section 3 ("No edge enters IDLE"), the writes of a tick in
43_control_loop.md, and, at a reset edge, 10_state.md section 5 and 70_reset_and_hazards.md section 1: every step
keeps the diagnostic registers truthful, from every state in which they are. At a reset edge it needs
`diag_state_r` and `diag_cam_raw_r` to take 0, which is the model's reading (notes/assumptions/9.md): were they
kept, as the diagnostic rule of 43_control_loop.md has it there, the statement would fail. -/
def Obligations.EveryStepKeepsTheDiagnosticTruthful : Prop :=
  ∀ s t : State, s.regs.DiagTruthful → step s = .next t → t.regs.DiagTruthful

/-- Derived from 10_state.md R33: the diagnostic registers are truthful at reset, for every bootstrap sample. -/
def Obligations.ResetStateHasTruthfulDiagnostic : Prop :=
  State.reset.regs.DiagTruthful

-- Outputs

/-- R120 to R123: the servo ports of every state. -/
def Obligations.ServoPortsFollowTheStateTable : Prop :=
  ∀ (w : Nat) (r : Regs w),
    (r.state = .cocking ∨ r.state = .firing ∨ r.state = .recockingAfterReset →
      M r.state = (.forward, true) ∧ r.outputs.servoCmd = 0b10#2 ∧
        r.outputs.servoPulseUs = 2000#11 ∧ r.outputs.indicator = true) ∧
    (r.state = .decocking ∨ r.state = .resetting →
      M r.state = (.reverse, true) ∧ r.outputs.servoCmd = 0b00#2 ∧
        r.outputs.servoPulseUs = 1000#11 ∧ r.outputs.indicator = true) ∧
    (r.state = .idle ∨ r.state = .cocked ∨ r.state = .idleAfterReset →
      M r.state = (.neutral, false) ∧ r.outputs.servoCmd = 0b01#2 ∧
        r.outputs.servoPulseUs = 1500#11 ∧ r.outputs.indicator = false)

/-- R59: the code and the pulse width of each command, in decimal and in binary; and at every state of the
block the two ports show one of the three pairs, so `0b11` is never driven. -/
def Obligations.EveryServoCodeHasItsPulseWidth : Prop :=
  (servoCode .reverse = 0b00#2 ∧ pulseUs .reverse = 0b01111101000#11 ∧ (pulseUs .reverse).toNat = 1000) ∧
  (servoCode .neutral = 0b01#2 ∧ pulseUs .neutral = 0b10111011100#11 ∧ (pulseUs .neutral).toNat = 1500) ∧
  (servoCode .forward = 0b10#2 ∧ pulseUs .forward = 0b11111010000#11 ∧ (pulseUs .forward).toNat = 2000) ∧
  ∀ (w : Nat) (r : Regs w), ∃ c : ServoCmd,
    r.outputs.servoCmd = servoCode c ∧ r.outputs.servoPulseUs = pulseUs c ∧
      r.outputs.servoCmd ≠ 0b11#2

/-- R136: `state_o` and the servo ports come from `state` through `M`, the `diag_*` ports from the `diag_*_r`
registers; so after a step they show the registers after it. -/
def Obligations.PortsAreDrivenFromTheRegisters : Prop :=
  ∀ s : State, ∃ t, step s = .next t ∧
    t.regs.outputs =
      { stateO := t.regs.state.code
        servoCmd := servoCode (M t.regs.state).1
        servoPulseUs := pulseUs (M t.regs.state).1
        indicator := (M t.regs.state).2
        diagValid := t.regs.diagValid
        diagState := t.regs.diagState
        diagCamRaw := t.regs.diagCamRaw }

-- Reset

/-- R170 to R173 with the values of R33: a reset edge, from any state at all, gives every register its reset
value and performs no tick; `state` is loaded from the raw `cam_switch_pin` of that edge. (R135 has other words
about two of the diagnostic registers: notes/assumptions/9.md.) -/
def Obligations.ResetEdgeLoadsEveryResetValue : Prop :=
  ∀ s : State, s.input.rst = true →
    ∃ t, step s = .next t ∧
      (∀ c, t.regs.filter c = ⟨false, false, 0#Config.timeW⟩) ∧
      t.regs.state = (if s.input.camSwitchPin then .cocked else .idle) ∧
      t.regs.diagValid = false ∧ t.regs.diagState = 0#3 ∧ t.regs.diagCamRaw = false

/-- R33: the reset state holds the reset value of every register, for one of the two samples of
`cam_switch_pin` at its reset edge. -/
def Obligations.ResetStateHoldsEveryResetValue : Prop :=
  ∃ camSwitchPin : Bool,
    (∀ c, State.reset.regs.filter c = ⟨false, false, 0#Config.timeW⟩) ∧
    State.reset.regs.state = (if camSwitchPin then .cocked else .idle) ∧
    State.reset.regs.diagValid = false ∧ State.reset.regs.diagState = 0#3 ∧
    State.reset.regs.diagCamRaw = false

/-- Derived from 70_reset_and_hazards.md R174 (an inference of the spec): after a reset edge the servo is
NEUTRAL at 1500 µs with the indicator off, whichever bootstrap state was chosen. -/
def Obligations.ServoIsNeutralAfterReset : Prop :=
  ∀ s : State, s.input.rst = true →
    ∃ t, step s = .next t ∧ t.regs.outputs.servoCmd = 0b01#2 ∧
      t.regs.outputs.servoPulseUs = 1500#11 ∧ t.regs.outputs.indicator = false ∧
      t.regs.outputs.diagValid = false

/-- Derived from 10_state.md section 5 (the reset value of every register) and 70_reset_and_hazards.md section 1
(the reset edge): what a reset edge leaves in the registers is settled by `cam_switch_pin` alone, whatever state
came before. For `diag_state_r` and `diag_cam_raw_r` that is the model's reading (notes/assumptions/9.md), since the
diagnostic rule of 43_control_loop.md has them keep their values at reset. -/
def Obligations.ResetEdgeForgetsEverythingButTheCamPin : Prop :=
  ∀ s₁ s₂ t₁ t₂ : State, s₁.input.rst = true → s₂.input.rst = true →
    s₁.input.camSwitchPin = s₂.input.camSwitchPin →
    step s₁ = .next t₁ → step s₂ = .next t₂ → t₁.regs = t₂.regs

/-- Derived from 10_state.md R34 ("The reset value of `f[i].lct` cannot be observed"): whatever times the
filters hold at reset, every run shows the same outputs at every edge. -/
def Obligations.ResetValueOfLastChangeTimeIsUnobservable : Prop :=
  ∀ (w window : Nat) (cam : Bool) (x y z : Instant w) (l : List (Inputs w)),
    let r := Regs.reset w cam
    let r' := { r with
      armFire := r.armFire.withLct x, disarm := r.disarm.withLct y,
      camSwitch := r.camSwitch.withLct z }
    r'.outputTrace window l = r.outputTrace window l

/-- Derived from 70_reset_and_hazards.md R176 (an inference of the spec): an input asserted at every tick since
reset is debounced as asserted at the first tick whose difference from the first tick exceeds the window, and at
no earlier one. -/
def Obligations.InputHeldSinceResetIsSeenOnlyPastTheWindow : Prop :=
  ∀ (w window : Nat) (cam : Bool) (c : Chan) (first : Inputs w) (l : List (Inputs w)),
    (∀ inp ∈ first :: l, inp.rst = false ∧ inp.raw c = true) →
      ((((Regs.reset w cam).run window (first :: l)).filter c).stable = true ↔
        ∃ inp ∈ l, window < (subTime inp.now first.now).toNat)

/-- Derived from 30_encoding.md R63 (for a time base in which `WINDOW + 1` is below `2^TIME_W`): after a
`settle`, every filter whose `last` and `stable` differed from the presented level has accepted it, at the second
tick and not at the first. -/
def Obligations.SettleMakesEveryChangedFilterAccept : Prop :=
  ∀ (w window t : Nat) (p : PinWord) (r : Regs w) (c : Chan),
    window + 1 < 2 ^ w →
    let level := (Inputs.ofPins (BitVec.ofNat w t) p).raw c
    (r.filter c).last ≠ level → (r.filter c).stable ≠ level →
      ((r.run window ((expandLine w window (.settle t p)).take 1)).filter c).stable ≠ level ∧
      ((r.run window (expandLine w window (.settle t p))).filter c).stable = level

/-- Derived from the model's own interface (notes/assumptions/6.md): an instruction's word put where the next
step fetches is what that step runs, with the effect of a tick to its row's next state. -/
def Obligations.PlacedInstructionIsRunByTheNextStep : Prop :=
  ∀ (s : State) (i : Instr),
    let s' := s.withFetchWord 8 (encode i).toNat
    step s' = exec i s' ∧ ∃ t, step s' = .next t ∧ TickEffect s' i.row.next t
end

