-- ==== Sys2Proof/Laws/State.lean ====
section
/-! SUPPORT. One lemma per field per update of the state and the registers, each true by rfl. -/

namespace Sys2Proof.Machine

section filters
variable {w : Nat} (f : DebounceFilter w) (level : Bool)

@[simp] theorem filter_reset_stable : (DebounceFilter.reset w).stable = false := rfl
@[simp] theorem filter_reset_last : (DebounceFilter.reset w).last = false := rfl
@[simp] theorem filter_reset_lct : (DebounceFilter.reset w).lct = 0#w := rfl
@[simp] theorem settledAt_stable : (f.settledAt level).stable = level := rfl
@[simp] theorem settledAt_last : (f.settledAt level).last = level := rfl
@[simp] theorem settledAt_lct : (f.settledAt level).lct = f.lct := rfl

end filters

section channels
variable {w : Nat} (r : Regs w) (inp : Inputs w)

@[simp] theorem filter_armFire : r.filter .armFire = r.armFire := rfl
@[simp] theorem filter_disarm : r.filter .disarm = r.disarm := rfl
@[simp] theorem filter_camSwitch : r.filter .camSwitch = r.camSwitch := rfl
@[simp] theorem pin_armFire : inp.pin .armFire = inp.armFirePin := rfl
@[simp] theorem pin_disarm : inp.pin .disarm = inp.disarmPin := rfl
@[simp] theorem pin_camSwitch : inp.pin .camSwitch = inp.camSwitchPin := rfl

end channels

section reset
variable (w : Nat) (cam : Bool)

@[simp] theorem reset_filter (c : Chan) : (Regs.reset w cam).filter c = DebounceFilter.reset w := by
  cases c <;> rfl
@[simp] theorem reset_state : (Regs.reset w cam).state = bootstrap cam := rfl
@[simp] theorem reset_diagValid : (Regs.reset w cam).diagValid = false := rfl
@[simp] theorem reset_diagState : (Regs.reset w cam).diagState = 0#3 := rfl
@[simp] theorem reset_diagCamRaw : (Regs.reset w cam).diagCamRaw = false := rfl

end reset

section tickTo
variable {w : Nat} (window : Nat) (next : Ctrl) (r : Regs w) (inp : Inputs w)

@[simp] theorem tickTo_filter (c : Chan) :
    (r.tickTo window next inp).filter c = r.filterAfter window inp c := by
  cases c <;> rfl
@[simp] theorem tickTo_state : (r.tickTo window next inp).state = next := by
  by_cases h : next = r.state <;> simp [Regs.tickTo, h]
@[simp] theorem tickTo_diagValid :
    (r.tickTo window next inp).diagValid = decide (next ≠ r.state) := rfl
@[simp] theorem tickTo_diagState : (r.tickTo window next inp).diagState =
    if next ≠ r.state then next.code else r.diagState := rfl
@[simp] theorem tickTo_diagCamRaw : (r.tickTo window next inp).diagCamRaw =
    if next ≠ r.state then inp.camSwitchPin else r.diagCamRaw := rfl

end tickTo

section afterEdge
variable (s : State) (r : Regs Config.timeW)

@[simp] theorem afterEdge_regs : (s.afterEdge r).regs = r := rfl
@[simp] theorem afterEdge_stim : (s.afterEdge r).stim = s.stim.tail := rfl
@[simp] theorem afterEdge_edges : (s.afterEdge r).edges = s.edges + 1 := rfl

end afterEdge

section inputs
variable (regs : Regs Config.timeW) (inp : Inputs Config.timeW) (rest : List (Inputs Config.timeW))
  (n : Nat)

@[simp] theorem input_placed : (State.mk regs (inp :: rest) n).input = inp := rfl
@[simp] theorem input_free : (State.mk regs [] n).input = freeInputs n := rfl

end inputs

end Sys2Proof.Machine
end

