-- ==== Sys2Proof/Laws/Ops.lean ====
section
/-! SUPPORT. For each shared operation, what it can do, said once: the filter's two stages and UPDATE, the
tick of a row, the reset edge, `exec`, an edge, and runs. -/

namespace Sys2Proof.Machine

section filters
variable {w : Nat} (window : Nat) (f : DebounceFilter w) (raw : Bool) (now : Instant w)

/-- The difference of a time from itself never exceeds a window (R71: "so `elapsed = 0`"). -/
@[simp] theorem exceedsWindow_self : exceedsWindow window now now = false := by
  simp [exceedsWindow, subTime]

/-- UPDATE does one of four things: it captures a new raw level; it returns to a settled filter with its
record as it was; it waits; or it accepts. -/
theorem update_cases :
    (raw ≠ f.last ∧ f.update window raw now = ⟨f.stable, raw, now⟩) ∨
    (raw = f.last ∧ f.Settled ∧ f.update window raw now = f) ∨
    (raw = f.last ∧ f.stable ≠ f.last ∧ exceedsWindow window now f.lct = false ∧
      f.update window raw now = f) ∨
    (raw = f.last ∧ f.stable ≠ f.last ∧ exceedsWindow window now f.lct = true ∧
      f.update window raw now = ⟨f.last, f.last, f.lct⟩) := by
  by_cases hr : raw = f.last
  · by_cases hs : f.stable = f.last
    · exact .inr (.inl ⟨hr, hs, by simp [DebounceFilter.update, DebounceFilter.capture, DebounceFilter.accept, hr, hs]⟩)
    · cases he : exceedsWindow window now f.lct
      · exact .inr (.inr (.inl ⟨hr, hs, rfl,
          by simp [DebounceFilter.update, DebounceFilter.capture, DebounceFilter.accept, hr, he]⟩))
      · exact .inr (.inr (.inr ⟨hr, hs, rfl,
          by simp [DebounceFilter.update, DebounceFilter.capture, DebounceFilter.accept, hr, hs, he]⟩))
  · exact .inl ⟨hr, by simp [DebounceFilter.update, DebounceFilter.capture, DebounceFilter.accept, hr]⟩

/-- After a tick, `last` is the raw level that the tick sampled. -/
@[simp] theorem update_last : (f.update window raw now).last = raw := by
  rcases update_cases window f raw now with ⟨_, h⟩ | ⟨hr, _, h⟩ | ⟨hr, _, _, h⟩ | ⟨hr, _, _, h⟩ <;>
    rw [h]
  all_goals exact hr.symm

@[simp] theorem filter_run_nil : f.run window [] = f := rfl
@[simp] theorem filter_run_cons (x : Bool × Instant w) (l : List (Bool × Instant w)) :
    f.run window (x :: l) = (f.update window x.1 x.2).run window l := rfl
theorem filter_run_append (l l' : List (Bool × Instant w)) :
    f.run window (l ++ l') = (f.run window l).run window l' := by
  simp [DebounceFilter.run, List.foldl_append]

end filters

section edges
variable {w : Nat} (window : Nat) (r : Regs w) (inp : Inputs w)

/-- A reset edge performs no tick (70_reset_and_hazards.md R170). -/
theorem edge_of_reset (h : inp.rst = true) : r.edge window inp = Regs.reset w inp.camSwitchPin := by
  simp [Regs.edge, h]

/-- Every edge outside reset is a tick (43_control_loop.md R130). -/
theorem edge_of_tick (h : inp.rst = false) : r.edge window inp = r.tick window inp := by
  simp [Regs.edge, h]

/-- A tick updates each filter from its own record, its own pin and the common `now` alone. -/
@[simp] theorem tick_filter (c : Chan) :
    (r.tick window inp).filter c = (r.filter c).update window (inp.raw c) inp.now := by
  simp [Regs.tick, Regs.filterAfter]

/-- A tick's next state is `T` of the present state and the tick's own debounced values. -/
@[simp] theorem tick_state : (r.tick window inp).state =
    T r.state (r.debounced window inp .armFire) (r.debounced window inp .disarm)
      (r.debounced window inp .camSwitch) := by
  simp [Regs.tick]

@[simp] theorem run_nil : r.run window [] = r := rfl
@[simp] theorem run_cons (l : List (Inputs w)) :
    r.run window (inp :: l) = (r.edge window inp).run window l := rfl
theorem run_append (l l' : List (Inputs w)) :
    r.run window (l ++ l') = (r.run window l).run window l' := by
  simp [Regs.run, List.foldl_append]

end edges

/-- A step with `rst` = 1 is a reset edge. -/
theorem step_of_reset (s : State) (h : s.input.rst = true) : step s = resetEdge s := by
  simp [step, runEdge, h]

/-- A step with `rst` = 0 decodes the selector word, and runs the instruction or refuses. -/
theorem step_of_tick (s : State) (h : s.input.rst = false) :
    step s = match decode s.selector with
      | .ok i => exec i s
      | .error _ => .refused .noRow :=
  if_neg (by simp [h])

/-- The meaning of every row is the tick to the next state that R56's table gives it. -/
theorem exec_eq_tickRow (i : Instr) (s : State) : exec i s = tickRow i.row.next s := by
  cases i <;> rfl

/-- A row always gives a next state, with the registers of the tick and that edge's stimulus used up. -/
theorem tickRow_next (next : Ctrl) (s : State) :
    tickRow next s = .next (s.afterEdge (s.regs.tickTo Config.window next s.input)) := rfl

/-- A reset edge always gives a next state, with every register at its reset value. -/
theorem resetEdge_next (s : State) :
    resetEdge s = .next (s.afterEdge (Regs.reset Config.timeW s.input.camSwitchPin)) := rfl

/-- The tick of a row has the effect of a tick to that row's next state. -/
theorem tickRow_effect {next : Ctrl} {s t : State} (h : tickRow next s = .next t) :
    TickEffect s next t := by
  cases h
  exact
    { filters := fun c => by simp [Regs.filterAfter, Inputs.raw]
      state := by simp
      diagValid := by simp
      event := fun hn => by simp [hn]
      noEvent := fun hn => by simp [hn] }

end Sys2Proof.Machine
end

