-- ==== Sys2Proof/Laws/PerInstr.lean ====
section
/-! SUPPORT. The family EncodedInItsRow, one lemma per constructor of `Instr`: the selector word that the
pattern column gives an instruction (30_encoding.md R56) lies in the row that the mask and match columns
give it, whatever its operands are. -/

namespace Sys2Proof.Laws.EncodedInItsRow

/-- The instruction's word matches its row's mask and match. -/
def Statement (i : Instr) : Prop := i.row.hits (encode i) = true

theorem idleDisarm : ∀ armFire camSwitch : Bool, Statement (.idleDisarm armFire camSwitch) := by
  unfold Statement
  decide

theorem idleArm : ∀ camSwitch : Bool, Statement (.idleArm camSwitch) := by
  unfold Statement
  decide

theorem idleHold : ∀ camSwitch : Bool, Statement (.idleHold camSwitch) := by
  unfold Statement
  decide

theorem cockingDisarm : ∀ armFire camSwitch : Bool, Statement (.cockingDisarm armFire camSwitch) := by
  unfold Statement
  decide

theorem cockingCam : ∀ armFire : Bool, Statement (.cockingCam armFire) := by
  unfold Statement
  decide

theorem cockingHold : ∀ armFire : Bool, Statement (.cockingHold armFire) := by
  unfold Statement
  decide

theorem cockedDisarm : ∀ armFire camSwitch : Bool, Statement (.cockedDisarm armFire camSwitch) := by
  unfold Statement
  decide

theorem cockedArm : ∀ camSwitch : Bool, Statement (.cockedArm camSwitch) := by
  unfold Statement
  decide

theorem cockedHold : ∀ camSwitch : Bool, Statement (.cockedHold camSwitch) := by
  unfold Statement
  decide

theorem firingDisarm : ∀ armFire camSwitch : Bool, Statement (.firingDisarm armFire camSwitch) := by
  unfold Statement
  decide

theorem firingNocam : ∀ armFire : Bool, Statement (.firingNocam armFire) := by
  unfold Statement
  decide

theorem firingHold : ∀ armFire : Bool, Statement (.firingHold armFire) := by
  unfold Statement
  decide

theorem decockingNocam : ∀ armFire disarm : Bool, Statement (.decockingNocam armFire disarm) := by
  unfold Statement
  decide

theorem decockingHold : ∀ armFire disarm : Bool, Statement (.decockingHold armFire disarm) := by
  unfold Statement
  decide

theorem resettingCam : ∀ armFire disarm : Bool, Statement (.resettingCam armFire disarm) := by
  unfold Statement
  decide

theorem resettingHold : ∀ armFire disarm : Bool, Statement (.resettingHold armFire disarm) := by
  unfold Statement
  decide

theorem idleAfterResetArm : ∀ disarm camSwitch : Bool, Statement (.idleAfterResetArm disarm camSwitch) := by
  unfold Statement
  decide

theorem idleAfterResetHold : ∀ disarm camSwitch : Bool, Statement (.idleAfterResetHold disarm camSwitch) := by
  unfold Statement
  decide

theorem recockingAfterResetDisarm : ∀ armFire camSwitch : Bool, Statement (.recockingAfterResetDisarm armFire camSwitch) := by
  unfold Statement
  decide

theorem recockingAfterResetNocam : ∀ armFire : Bool, Statement (.recockingAfterResetNocam armFire) := by
  unfold Statement
  decide

theorem recockingAfterResetHold : ∀ armFire : Bool, Statement (.recockingAfterResetHold armFire) := by
  unfold Statement
  decide

end Sys2Proof.Laws.EncodedInItsRow
end

