-- ==== Sys2Proof/Tests/Slice0.lean ====
section
/-! SUPPORT. The model's own tests. Expected values are the spec's: the examples of 41_transition_table.md
R93 to R113 and the vectors of 95_test_vectors.md, at the reference `TIME_W` = 32, `WINDOW` = 5000. After
them, a witness for every statement that has hypotheses. -/

namespace Sys2Proof.Tests

open Sys2Proof Sys2Proof.Machine

-- WellFormed: what each check refuses

/-- R64: a trace that starts with a tick is refused. -/
theorem test_trace_without_reset_is_ill_formed :
    traceWellFormed 32 [.tick 0 0b110#3] = false := by decide

/-- R62: a time of `2^TIME_W` is refused in a tick and in a settle; one below it is accepted. -/
theorem test_trace_time_past_width_is_ill_formed :
    traceWellFormed 32 [.reset false, .tick (2 ^ 32) 0b110#3] = false ∧
    traceWellFormed 32 [.reset false, .settle (2 ^ 32) 0b110#3] = false ∧
    traceWellFormed 32 [.reset false, .tick (2 ^ 32 - 1) 0b110#3, .settle 0 0b010#3] = true := by
  decide

/-- R8: a window of 0, or one that `TIME_W` does not hold, is no legal timing; the reference is. -/
theorem test_timing_constraint :
    ¬ (Timing.mk 32 0).Legal ∧ ¬ (Timing.mk 3 8).Legal ∧ Timing.reference.Legal := by decide

-- Decode: the example word of every row rule, bit by bit

theorem test_decode_idle_rows :
    decode 0b000111#6 = .ok (.idleDisarm true true) ∧ decode 0b000101#6 = .ok (.idleArm true) ∧
    decode 0b000001#6 = .ok (.idleHold true) := by decide

theorem test_decode_cocking_rows :
    decode 0b001111#6 = .ok (.cockingDisarm true true) ∧ decode 0b001101#6 = .ok (.cockingCam true) ∧
    decode 0b001100#6 = .ok (.cockingHold true) := by decide

theorem test_decode_cocked_rows :
    decode 0b010111#6 = .ok (.cockedDisarm true true) ∧ decode 0b010101#6 = .ok (.cockedArm true) ∧
    decode 0b010001#6 = .ok (.cockedHold true) := by decide

theorem test_decode_firing_rows :
    decode 0b011111#6 = .ok (.firingDisarm true true) ∧ decode 0b011100#6 = .ok (.firingNocam true) ∧
    decode 0b011101#6 = .ok (.firingHold true) := by decide

theorem test_decode_decocking_rows :
    decode 0b100110#6 = .ok (.decockingNocam true true) ∧
    decode 0b100111#6 = .ok (.decockingHold true true) := by decide

theorem test_decode_resetting_rows :
    decode 0b101111#6 = .ok (.resettingCam true true) ∧
    decode 0b101110#6 = .ok (.resettingHold true true) := by decide

theorem test_decode_idle_after_reset_rows :
    decode 0b110111#6 = .ok (.idleAfterResetArm true true) ∧
    decode 0b110011#6 = .ok (.idleAfterResetHold true true) := by decide

theorem test_decode_recocking_rows :
    decode 0b111111#6 = .ok (.recockingAfterResetDisarm true true) ∧
    decode 0b111100#6 = .ok (.recockingAfterResetNocam true) ∧
    decode 0b111101#6 = .ok (.recockingAfterResetHold true) := by decide

/-- Operands stand at their own bits: each is read where the other is 0. -/
theorem test_decode_operand_places :
    decode 0b000110#6 = .ok (.idleDisarm true false) ∧
    decode 0b000011#6 = .ok (.idleDisarm false true) ∧
    decode 0b100100#6 = .ok (.decockingNocam true false) ∧
    decode 0b100010#6 = .ok (.decockingNocam false true) ∧
    decode 0b110010#6 = .ok (.idleAfterResetHold true false) ∧
    decode 0b110001#6 = .ok (.idleAfterResetHold false true) := by decide

/-- A byte with a bit above the selector word set, and no byte, are refused by name. -/
theorem test_decode_refuses_what_is_no_selector :
    decodeBytes [0x40#8] = .error .notSixBits ∧ decodeBytes [0x82#8] = .error .notSixBits ∧
    decodeBytes [] = .error .noByte ∧ decodeTableWord 8 0x40 = none ∧
    decodeTableWord 8 0x3A = some (.recockingAfterResetDisarm false false) := by decide

-- Operations

/-- NV1 to NV6. -/
theorem test_normalise :
    normalise .armFire false = true ∧ normalise .armFire true = false ∧
    normalise .disarm false = true ∧ normalise .disarm true = false ∧
    normalise .camSwitch true = true ∧ normalise .camSwitch false = false := by decide

/-- A filter record of the vectors. -/
def rec32 (stable last : Bool) (lct : Nat) : DebounceFilter 32 := ⟨stable, last, BitVec.ofNat 32 lct⟩

/-- UPDATE at the reference window. -/
def upd (f : DebounceFilter 32) (raw : Bool) (now : Nat) : DebounceFilter 32 :=
  f.update 5000 raw (BitVec.ofNat 32 now)

/-- FV1 to FV7: capture, the window boundary, glitch, release. -/
theorem test_update_vectors_1_to_7 :
    upd (rec32 false false 0) false 100 = rec32 false false 0 ∧
    upd (rec32 false false 0) true 100 = rec32 false true 100 ∧
    upd (rec32 false true 100) true 5100 = rec32 false true 100 ∧
    upd (rec32 false true 100) true 5101 = rec32 true true 100 ∧
    upd (rec32 false true 100) false 3000 = rec32 false false 3000 ∧
    upd (rec32 true true 100) false 9000 = rec32 true false 9000 ∧
    upd (rec32 true false 9000) false 14001 = rec32 false false 9000 := by decide

/-- FV8 to FV14: wrap-around, time going back, nothing pending, a change in the accepting tick. -/
theorem test_update_vectors_8_to_14 :
    upd (rec32 false true 0xFFFFFF00) true 0x1289 = rec32 true true 0xFFFFFF00 ∧
    upd (rec32 false true 0xFFFFFF00) true 0x1288 = rec32 false true 0xFFFFFF00 ∧
    upd (rec32 false true 10000) true 9999 = rec32 true true 10000 ∧
    upd (rec32 true true 500) true 123456 = rec32 true true 500 ∧
    upd (rec32 false true 500) true 500 = rec32 false true 500 ∧
    upd (rec32 false true 100) false 99999 = rec32 false false 99999 ∧
    upd (rec32 true false 100) true 99999 = rec32 true true 99999 := by decide

/-- R182: at a 1 ms unit the window is 5 counts, and 6 ms of hold are needed (E-E). -/
theorem test_update_at_millisecond_unit :
    ((⟨false, true, 10#16⟩ : DebounceFilter 16).update 5 true 15#16).stable = false ∧
    ((⟨false, true, 10#16⟩ : DebounceFilter 16).update 5 true 16#16).stable = true := by decide

/-- The "next code" column of 95_test_vectors.md section 2.3, for the selector words 0x00 to 0x3F. -/
def nextCodes : List Nat :=
  [0, 0, 5, 5, 1, 1, 5, 5] ++ [1, 2, 5, 5, 1, 2, 5, 5] ++ [2, 2, 4, 4, 3, 3, 4, 4] ++
  [1, 3, 4, 4, 1, 3, 4, 4] ++ [5, 4, 5, 4, 5, 4, 5, 4] ++ [5, 6, 5, 6, 5, 6, 5, 6] ++
  [6, 6, 6, 6, 7, 7, 7, 7] ++ [1, 7, 6, 6, 1, 7, 6, 6]

/-- `T` gives the next code of every selector word. -/
theorem test_transition_table :
    (List.range 64).map (fun n =>
      let w : Sel := BitVec.ofNat 6 n
      (T (Ctrl.ofCode (selState w)) (selArmFire w) (selDisarm w) (selCamSwitch w)).code.toNat) =
    nextCodes := by decide

/-- MV1 to MV8, as the ports `(servo_cmd, servo_pulse_us, indicator)` of states 0 to 7. -/
theorem test_servo_map :
    [Ctrl.idle, .cocking, .cocked, .firing, .decocking, .resetting, .idleAfterReset,
      .recockingAfterReset].map (fun c =>
        ((servoCode (M c).1).toNat, (pulseUs (M c).1).toNat, (M c).2)) =
    [(1, 1500, false), (2, 2000, true), (1, 1500, false), (2, 2000, true), (0, 1000, true),
      (0, 1000, true), (1, 1500, false), (2, 2000, true)] := by decide

/-- Registers of the vectors: the filters, the state and diag. -/
def regs32 (af da cs : DebounceFilter 32) (state : Ctrl) (v : Bool) (d : Nat) (c : Bool) : Regs 32 :=
  ⟨af, da, cs, state, v, BitVec.ofNat 3 d, c⟩

/-- One tick at the reference window, with the pin word of the vectors. -/
def tick32 (r : Regs 32) (now : Nat) (p : PinWord) : Regs 32 :=
  r.edge 5000 (Inputs.ofPins (BitVec.ofNat 32 now) p)

/-- KV1: arm_fire is accepted and fires in the same tick. -/
theorem test_tick_accepts_and_fires :
    tick32 (regs32 (rec32 false true 7000) (rec32 false false 0) (rec32 true true 0) .cocked false 0 false)
        12001 0b011#3 =
      regs32 (rec32 true true 7000) (rec32 false false 0) (rec32 true true 0) .firing true 3 true := by
  decide

/-- KV2: no change, the strobe drops, the payload holds. -/
theorem test_tick_without_change_drops_strobe :
    tick32 (regs32 (rec32 true true 7000) (rec32 false false 0) (rec32 true true 0) .firing true 3 true)
        13000 0b110#3 =
      regs32 (rec32 true false 13000) (rec32 false false 0) (rec32 true false 13000) .firing false 3
        true := by decide

/-- KV3: two filters accept in one tick, one transition. -/
theorem test_tick_makes_one_transition :
    tick32 (regs32 (rec32 true false 13000) (rec32 false false 0) (rec32 true false 13000) .firing false 3
        true) 18001 0b110#3 =
      regs32 (rec32 false false 13000) (rec32 false false 0) (rec32 false false 13000) .cocking true 1
        false := by decide

/-- KV4 and KV5: both buttons are captured, then accepted; disarm wins. -/
theorem test_tick_disarm_wins :
    tick32 (regs32 (rec32 false false 0) (rec32 false false 0) (rec32 false false 0) .idle false 0 false)
        50 0b000#3 =
      regs32 (rec32 false true 50) (rec32 false true 50) (rec32 false false 0) .idle false 0 false ∧
    tick32 (regs32 (rec32 false true 50) (rec32 false true 50) (rec32 false false 0) .idle false 0 false)
        5051 0b000#3 =
      regs32 (rec32 true true 50) (rec32 true true 50) (rec32 false false 0) .resetting true 5 false := by
  decide

/-- RV1 to RV4: reset from FIRING with an event showing, cam high; and the last of two edges decides. -/
theorem test_reset_edges :
    (regs32 (rec32 true true 7000) (rec32 false true 5) (rec32 true false 9) .firing true 3 true).edge 5000
        (Inputs.ofReset 32 true) =
      regs32 (rec32 false false 0) (rec32 false false 0) (rec32 false false 0) .cocked false 0 false ∧
    (Regs.reset 32 true).edge 5000 (Inputs.ofReset 32 false) =
      regs32 (rec32 false false 0) (rec32 false false 0) (rec32 false false 0) .idle false 0 false := by
  decide

/-- The first line of P3 and its encoding: ticks at 0 and 5001, pins 010; and a settle across the wrap. -/
theorem test_settle_expansion :
    (expandLine 32 5000 (.settle 0 0b010#3)).map Inputs.encoding =
      [(0x00000000#32, 0b010#3), (0x00001389#32, 0b010#3)] ∧
    (expandLine 32 5000 (.settle 0xFFFFFFFF 0b110#3)).map Inputs.encoding =
      [(0xFFFFFFFF#32, 0b110#3), (0x00001388#32, 0b110#3)] := by decide

-- Steps: every row run as the first instruction after reset, on its rule's example word

/-- A selector word placed where the next step takes its own. -/
def placed (w : Nat) : State := State.reset.withFetchWord 8 w

/-- The step from a placed word goes to the given state, with the strobe as given. -/
def goesTo (w : Nat) (c : Ctrl) (event : Bool) : Bool :=
  match step (placed w) with
  | .next t => decide (t.regs.state = c ∧ t.regs.diagValid = event ∧ t.edges = 1)
  | _ => false

theorem test_step_idle_rows :
    goesTo 0b000111 .resetting true = true ∧ goesTo 0b000101 .cocking true = true ∧
    goesTo 0b000001 .idle false = true := by decide

theorem test_step_cocking_rows :
    goesTo 0b001111 .resetting true = true ∧ goesTo 0b001101 .cocked true = true ∧
    goesTo 0b001100 .cocking false = true := by decide

theorem test_step_cocked_rows :
    goesTo 0b010111 .decocking true = true ∧ goesTo 0b010101 .firing true = true ∧
    goesTo 0b010001 .cocked false = true := by decide

theorem test_step_firing_rows :
    goesTo 0b011111 .decocking true = true ∧ goesTo 0b011100 .cocking true = true ∧
    goesTo 0b011101 .firing false = true := by decide

theorem test_step_decocking_rows :
    goesTo 0b100110 .resetting true = true ∧ goesTo 0b100111 .decocking false = true := by decide

theorem test_step_resetting_rows :
    goesTo 0b101111 .idleAfterReset true = true ∧ goesTo 0b101110 .resetting false = true := by decide

theorem test_step_idle_after_reset_rows :
    goesTo 0b110111 .recockingAfterReset true = true ∧ goesTo 0b110011 .idleAfterReset false = true := by
  decide

theorem test_step_recocking_rows :
    goesTo 0b111111 .idleAfterReset true = true ∧ goesTo 0b111100 .cocking true = true ∧
    goesTo 0b111101 .recockingAfterReset false = true := by decide

-- Witnesses: states and operands that meet the hypotheses of each statement

/-- A state at which a reset edge with the given cam level is placed. -/
def atReset (cam : Bool) : State := { placed 0b011101 with stim := [Inputs.ofReset Config.timeW cam] }

/-- The hypotheses of a row statement: a tick is placed, and its selector word matches. -/
def rowPlaced (w : Nat) (mask pattern : Sel) : Prop :=
  (placed w).input.rst = false ∧ (placed w).selector &&& mask = pattern

theorem witness_DecodeAndEncodeAgree :
    (Instr.idleHold true).wellFormed = true ∧ decode 0b000001#6 = .ok (.idleHold true) := by decide

theorem witness_DisjointRowsAgreeWithFirstMatchForm :
    decode 0b110011#6 = .ok (.idleAfterResetHold true true) := by decide

theorem witness_TickIsThePairOfNowAndPinWord :
    (Inputs.ofPins 7#32 0b101#3).rst = false := by decide

theorem witness_WindowComparisonIsModularAndStrict : 5000 + 1 < 2 ^ 32 := by decide

theorem witness_FiltersAreIndependent :
    ∃ t₁ t₂, step (placed 0b000000) = .next t₁ ∧ step (placed 0b000100) = .next t₂ ∧
      (placed 0b000000).input.rst = (placed 0b000100).input.rst ∧
      (placed 0b000000).regs.filter .camSwitch = (placed 0b000100).regs.filter .camSwitch ∧
      (placed 0b000000).input.pin .camSwitch = (placed 0b000100).input.pin .camSwitch ∧
      (placed 0b000000).input.now = (placed 0b000100).input.now :=
  ⟨_, _, rfl, rfl, rfl, rfl, rfl, rfl⟩

theorem witness_StableChangesOnlyToAHeldLevel :
    (upd (rec32 false true 100) true 5101).stable ≠ (rec32 false true 100).stable := by decide

theorem witness_StableChangeNeedsALevelHeldPastTheWindow :
    (rec32 false false 0).Settled ∧
    ((rec32 false false 0).run 5000 ([(true, 100#32)] ++ [(true, 5101#32)])).stable ≠
      ((rec32 false false 0).run 5000 [(true, 100#32)]).stable := by decide

/-- A stretch whose one run of two samples spans exactly the window, from a settled filter; and from a
filter with a level pending, which the first sample takes back. -/
theorem witness_GlitchesNeverChangeStable :
    (rec32 false false 0).Settled ∧
    (∀ x ∈ [(true, 100#32), (true, 5100#32), (false, 5200#32)].head?, x.1 ≠ (rec32 true false 7).last) ∧
    NoLongRun 5000 [(true, 100#32), (true, 5100#32), (false, 5200#32)] := by
  refine ⟨rfl, by simp [rec32], ?_⟩
  intro pre a mid z post h hmid hz
  rcases pre with _ | ⟨_, _ | ⟨_, _ | ⟨_, pre⟩⟩⟩ <;>
    rcases mid with _ | ⟨_, _ | ⟨_, mid⟩⟩ <;> simp_all
  · obtain ⟨rfl, rfl, _⟩ := h
    decide
  · obtain ⟨rfl, _, rfl, _⟩ := h
    simp at hz
  · obtain ⟨_, rfl, rfl, _⟩ := h
    simp at hz

/-- Both clauses, each at the boundary of acceptance. -/
theorem witness_HeldLevelIsAcceptedAtTheFirstTickPastTheWindow :
    (rec32 false false 0).last ≠ true ∧ (rec32 false false 0).stable ≠ true ∧
    (rec32 true false 0).last ≠ true ∧ (rec32 true false 0).stable = true ∧
    ∀ x ∈ [(true, 5100#32), (true, 5101#32)], x.1 = true := by simp [rec32]

/-- A stretch across the wrap of `now`, with ticks exactly at the window and one count past it. -/
theorem witness_AcceptanceMeasuresTrueTimeUnderTimeMonotone :
    (rec32 false false 0).last ≠ true ∧ (rec32 false false 0).stable ≠ true ∧
    TimeMonotone 32 [2 ^ 32 - 1, 2 ^ 32 + 4999, 2 ^ 32 + 5000] := by
  refine ⟨by decide, by decide, ?_⟩
  simp [TimeMonotone]

theorem witness_IdleRowsRunAsTheirRulesSay :
    rowPlaced 0b000111 0x3A#6 0x02#6 ∧ rowPlaced 0b000101 0x3E#6 0x04#6 ∧
    rowPlaced 0b000001 0x3E#6 0x00#6 := by
  unfold rowPlaced
  decide

theorem witness_CockingRowsRunAsTheirRulesSay :
    rowPlaced 0b001111 0x3A#6 0x0A#6 ∧ rowPlaced 0b001101 0x3B#6 0x09#6 ∧
    rowPlaced 0b001100 0x3B#6 0x08#6 := by
  unfold rowPlaced
  decide

theorem witness_CockedRowsRunAsTheirRulesSay :
    rowPlaced 0b010111 0x3A#6 0x12#6 ∧ rowPlaced 0b010101 0x3E#6 0x14#6 ∧
    rowPlaced 0b010001 0x3E#6 0x10#6 := by
  unfold rowPlaced
  decide

theorem witness_FiringRowsRunAsTheirRulesSay :
    rowPlaced 0b011111 0x3A#6 0x1A#6 ∧ rowPlaced 0b011100 0x3B#6 0x18#6 ∧
    rowPlaced 0b011101 0x3B#6 0x19#6 := by
  unfold rowPlaced
  decide

theorem witness_DecockingRowsRunAsTheirRulesSay :
    rowPlaced 0b100110 0x39#6 0x20#6 ∧ rowPlaced 0b100111 0x39#6 0x21#6 := by
  unfold rowPlaced
  decide

theorem witness_ResettingRowsRunAsTheirRulesSay :
    rowPlaced 0b101111 0x39#6 0x29#6 ∧ rowPlaced 0b101110 0x39#6 0x28#6 := by
  unfold rowPlaced
  decide

theorem witness_IdleAfterResetRowsRunAsTheirRulesSay :
    rowPlaced 0b110111 0x3C#6 0x34#6 ∧ rowPlaced 0b110011 0x3C#6 0x30#6 := by
  unfold rowPlaced
  decide

theorem witness_RecockingAfterResetRowsRunAsTheirRulesSay :
    rowPlaced 0b111111 0x3A#6 0x3A#6 ∧ rowPlaced 0b111100 0x3B#6 0x38#6 ∧
    rowPlaced 0b111101 0x3B#6 0x39#6 := by
  unfold rowPlaced
  decide

/-- Each of the three states, with disarm asserted. -/
theorem witness_ThreeStatesHaveNoDisarmGuard :
    (∃ t, (placed 0b110010).input.rst = false ∧ step (placed 0b110010) = .next t ∧
      (placed 0b110010).regs.state = .idleAfterReset) ∧
    (∃ t, (placed 0b100010).input.rst = false ∧ step (placed 0b100010) = .next t ∧
      (placed 0b100010).regs.state = .decocking) ∧
    (∃ t, (placed 0b101010).input.rst = false ∧ step (placed 0b101010) = .next t ∧
      (placed 0b101010).regs.state = .resetting) :=
  ⟨⟨_, rfl, rfl, rfl⟩, ⟨_, rfl, rfl, rfl⟩, ⟨_, rfl, rfl, rfl⟩⟩

/-- Disarm asserted in each of the five states that check it. -/
theorem witness_DisarmComesFirstWhereItIsChecked :
    ∀ w ∈ [0b000010, 0b001010, 0b010010, 0b011010, 0b111010],
      (placed w).input.rst = false ∧
      (placed w).regs.debounced Config.window (placed w).input .disarm = true := by decide

theorem witness_TicksMakeExactlyTheThirteenTransitions :
    ∃ t, (placed 0b000100).input.rst = false ∧ step (placed 0b000100) = .next t ∧
      t.regs.state ≠ (placed 0b000100).regs.state :=
  ⟨_, rfl, rfl, by decide⟩

/-- A tick that stays in IDLE, and a reset edge that enters it. -/
theorem witness_IdleIsEnteredOnlyByReset :
    (∃ t, step (placed 0b000000) = .next t ∧ t.regs.state = .idle) ∧
    (∃ t, step (atReset false) = .next t ∧ t.regs.state = .idle) :=
  ⟨⟨_, rfl, rfl⟩, ⟨_, rfl, rfl⟩⟩

theorem witness_EveryStateIsReachableFromTheBootstrapStates : 0 < 5000 ∧ 5000 + 1 < 2 ^ 32 := by decide

theorem witness_StepOutsideResetIsTheTick : (placed 0b010101).input.rst = false := by decide

theorem witness_StepRunsTheDecodedRow :
    (placed 0b010101).input.rst = false ∧
    decode (placed 0b010101).selector = .ok (.cockedArm true) ∧
    (Instr.cockedArm true).wellFormed = true := by decide

theorem witness_EveryRowAndStepUsesUpOneEdge :
    ∃ t, exec (.cockedArm true) (placed 0b010101) = .next t ∧ step (placed 0b010101) = .next t :=
  ⟨_, rfl, rfl⟩

theorem witness_StateIsWrittenOnlyByResetAndTick :
    (∃ t, step (placed 0b010101) = .next t) ∧ (∃ t, step (atReset true) = .next t) :=
  ⟨⟨_, rfl⟩, ⟨_, rfl⟩⟩

/-- The narrowest sink; a change, a tick without one, and a reset edge. -/
theorem witness_SinkReceivesTheCodeOfEveryNewState :
    3 ≤ 3 ∧
    (∃ t, step (placed 0b010101) = .next t ∧ (placed 0b010101).input.rst = false ∧
      t.regs.state ≠ (placed 0b010101).regs.state) ∧
    (∃ t, step (placed 0b010001) = .next t ∧ t.regs.state = (placed 0b010001).regs.state) ∧
    (∃ t, step (atReset true) = .next t ∧ (atReset true).input.rst = true) :=
  ⟨by decide, ⟨_, rfl, rfl, by decide⟩, ⟨_, rfl, rfl⟩, ⟨_, rfl, rfl⟩⟩

theorem witness_DiagnosticIsWrittenExactlyOnAChange :
    (∃ t, (placed 0b010101).input.rst = false ∧ step (placed 0b010101) = .next t ∧
      t.regs.state ≠ (placed 0b010101).regs.state) ∧
    (∃ t, (placed 0b010001).input.rst = false ∧ step (placed 0b010001) = .next t ∧
      t.regs.state = (placed 0b010001).regs.state) :=
  ⟨⟨_, rfl, rfl, by decide⟩, ⟨_, rfl, rfl, rfl⟩⟩

/-- Both ways for the diagnostic to be truthful. -/
theorem witness_EveryStepKeepsTheDiagnosticTruthful :
    (∃ t, (placed 0b010101).regs.DiagTruthful ∧ step (placed 0b010101) = .next t) ∧
    (∃ t u, step (placed 0b010101) = .next t ∧ t.regs.diagState = t.regs.state.code ∧
      t.regs.state ≠ .idle ∧ step { t with stim := [Inputs.ofReset Config.timeW false] } = .next u) :=
  ⟨⟨_, .inl (by decide), rfl⟩, ⟨_, _, rfl, rfl, by decide, rfl⟩⟩

theorem witness_ServoPortsFollowTheStateTable :
    (placed 0b011101).regs.state = .firing ∧ (placed 0b101110).regs.state = .resetting ∧
    (placed 0b110011).regs.state = .idleAfterReset := by decide

theorem witness_ResetEdgeLoadsEveryResetValue :
    (atReset true).input.rst = true ∧ (atReset false).input.rst = true ∧
    (atReset true).regs.state = .firing := by decide

theorem witness_ServoIsNeutralAfterReset : (atReset true).input.rst = true := by decide

theorem witness_ResetEdgeForgetsEverythingButTheCamPin :
    ∃ t₁ t₂, (atReset true).input.rst = true ∧
      ({ placed 0b000000 with stim := (atReset true).stim } : State).input.rst = true ∧
      (atReset true).input.camSwitchPin =
        ({ placed 0b000000 with stim := (atReset true).stim } : State).input.camSwitchPin ∧
      step (atReset true) = .next t₁ ∧
      step { placed 0b000000 with stim := (atReset true).stim } = .next t₂ :=
  ⟨_, _, rfl, rfl, rfl, rfl, rfl⟩

/-- cam_switch held high since reset, with ticks exactly at the window and one count past it. -/
theorem witness_InputHeldSinceResetIsSeenOnlyPastTheWindow :
    ∀ inp ∈ [Inputs.ofPins 7#32 0b111#3, Inputs.ofPins 5007#32 0b111#3, Inputs.ofPins 5008#32 0b111#3],
      inp.rst = false ∧ inp.raw .camSwitch = true := by decide

theorem witness_SettleMakesEveryChangedFilterAccept :
    5000 + 1 < 2 ^ 32 ∧
    ((Regs.reset 32 true).filter .armFire).last ≠
      (Inputs.ofPins (BitVec.ofNat 32 0) 0b010#3).raw .armFire ∧
    ((Regs.reset 32 true).filter .armFire).stable ≠
      (Inputs.ofPins (BitVec.ofNat 32 0) 0b010#3).raw .armFire := by decide

end Sys2Proof.Tests
end

section
/-! PROOFS. The statements of 10_state.md about the registers. All rest on two facts: a selector word
decodes to a row whose next state is that of `T`, so a step is the edge function `Regs.edge`; and what an
edge writes into a filter and into `state`. -/

namespace Sys2Proof.Machine

-- The decoder over the selector words of a state

/-- The row form (30_encoding.md R56) and the first-match form (41_transition_table.md R90) agree, one
state at a time. -/
theorem decode_selWord_map_next (st : Ctrl) :
    ∀ a d c : Bool,
      (decode (selWord st.code a d c)).map (fun i => i.row.next) = .ok (T st a d c) := by
  cases st <;> decide

/-- Every selector word picks a row (30_encoding.md R57), and the row goes where `T` goes. -/
theorem exists_decode_selWord (st : Ctrl) (a d c : Bool) :
    ∃ i, decode (selWord st.code a d c) = .ok i ∧ i.row.next = T st a d c := by
  have hmap := decode_selWord_map_next st a d c
  cases hdec : decode (selWord st.code a d c) with
  | error e => rw [hdec] at hmap; cases hmap
  | ok i => rw [hdec] at hmap; exact ⟨i, rfl, Except.ok.inj hmap⟩

/-- The row that the selector word of a tick picks makes the tick `Regs.tick`. -/
theorem exists_decode_selector (s : State) :
    ∃ i, decode s.selector = .ok i ∧
      s.regs.tickTo Config.window i.row.next s.input = s.regs.tick Config.window s.input := by
  obtain ⟨i, hdec, hnext⟩ := exists_decode_selWord s.regs.state
    (s.regs.debounced Config.window s.input .armFire)
    (s.regs.debounced Config.window s.input .disarm)
    (s.regs.debounced Config.window s.input .camSwitch)
  exact ⟨i, hdec, by rw [Regs.tick, hnext]⟩

-- The step as the edge function

/-- A step, run by the rows, is the edge function, run by `T`, of the registers and the edge's inputs
(43_control_loop.md R139). -/
theorem step_eq_edge (s : State) :
    step s = .next (s.afterEdge (s.regs.edge Config.window s.input)) := by
  cases hrst : s.input.rst with
  | true => rw [step_of_reset s hrst, resetEdge_next, edge_of_reset _ _ _ hrst]
  | false =>
    obtain ⟨i, hdec, htick⟩ := exists_decode_selector s
    rw [step_of_tick s hrst, hdec, edge_of_tick _ _ _ hrst, ← htick]
    exact exec_eq_tickRow i s

/-- The one state that a step can lead to, from the answer's side. -/
theorem eq_afterEdge_of_step {s t : State} (h : step s = .next t) :
    t = s.afterEdge (s.regs.edge Config.window s.input) :=
  (Host.Outcome.next.inj ((step_eq_edge s).symm.trans h)).symm

theorem regs_of_step {s t : State} (h : step s = .next t) :
    t.regs = s.regs.edge Config.window s.input := by
  rw [eq_afterEdge_of_step h, afterEdge_regs]

-- What an edge writes

section edge
variable {w : Nat} (window : Nat) (r : Regs w) (inp : Inputs w)

/-- An edge writes a filter from its own record, its own pin, `now` and `rst` (10_state.md R22). -/
theorem edge_filter (c : Chan) : (r.edge window inp).filter c =
    if inp.rst then DebounceFilter.reset w
    else (r.filter c).update window (normalise c (inp.pin c)) inp.now := by
  cases hrst : inp.rst with
  | true => simp [edge_of_reset _ _ _ hrst]
  | false => simp [edge_of_tick _ _ _ hrst, Inputs.raw]

/-- An edge writes `state` by the reset write or by the tick write (10_state.md R24). -/
theorem edge_state : (r.edge window inp).state =
    if inp.rst then bootstrap inp.camSwitchPin
    else T r.state (r.debounced window inp .armFire) (r.debounced window inp .disarm)
      (r.debounced window inp .camSwitch) := by
  cases hrst : inp.rst with
  | true => simp [edge_of_reset _ _ _ hrst]
  | false => simp [edge_of_tick _ _ _ hrst]

end edge

/-- The table of reset values (10_state.md R33), for either sample of `cam_switch_pin`. -/
theorem reset_values (w : Nat) (cam : Bool) :
    (∀ c, (Regs.reset w cam).filter c = ⟨false, false, 0#w⟩) ∧
    (Regs.reset w cam).state = (if cam then .cocked else .idle) ∧
    (Regs.reset w cam).diagValid = false ∧ (Regs.reset w cam).diagState = 0#3 ∧
    (Regs.reset w cam).diagCamRaw = false :=
  ⟨reset_filter w cam, reset_state w cam, reset_diagValid w cam, reset_diagState w cam,
    reset_diagCamRaw w cam⟩

-- The statements

/-- Settles O14: both steps write the filter by `edge_filter`, whose right side reads only what the two
states agree on. -/
theorem filtersAreIndependent : Obligations.FiltersAreIndependent := by
  unfold Obligations.FiltersAreIndependent
  intro c s₁ s₂ t₁ t₂ hstep₁ hstep₂ hrst hfilter hpin hnow
  rw [regs_of_step hstep₁, regs_of_step hstep₂, edge_filter, edge_filter, hrst, hfilter, hpin, hnow]

/-- Settles O40: a step leaves the registers of the edge, whose `state` is `edge_state`. -/
theorem stateIsWrittenOnlyByResetAndTick : Obligations.StateIsWrittenOnlyByResetAndTick := by
  unfold Obligations.StateIsWrittenOnlyByResetAndTick
  intro s t hstep
  rw [regs_of_step hstep, edge_state, bootstrap]

/-- Settles O49: a reset edge leaves `Regs.reset` of the sampled pin, from any state. -/
theorem resetEdgeLoadsEveryResetValue : Obligations.ResetEdgeLoadsEveryResetValue := by
  unfold Obligations.ResetEdgeLoadsEveryResetValue
  intro s hrst
  have hstep := (step_of_reset s hrst).trans (resetEdge_next s)
  exact ⟨_, hstep, reset_values Config.timeW s.input.camSwitchPin⟩

/-- Settles O50: the sample is the free bootstrap sample of `State.reset`. -/
theorem resetStateHoldsEveryResetValue : Obligations.ResetStateHoldsEveryResetValue := by
  unfold Obligations.ResetStateHoldsEveryResetValue
  exact ⟨Config.bootCamPin, reset_values Config.timeW Config.bootCamPin⟩

end Sys2Proof.Machine
end

section
/-! PROOFS. The statements of 30_encoding.md. They rest on the fields of a selector word, on the rows of
the opcode map being disjoint because any two disagree on a bit that both read, on the polarity of each
pin, and on what an edge writes into the diagnostic registers. -/

namespace Sys2Proof

-- State codes (30_encoding.md R53)

@[simp] theorem ofCode_code (c : Ctrl) : Ctrl.ofCode c.code = c := by
  cases c <;> rfl

@[simp] theorem code_ofCode : ∀ x : Code, (Ctrl.ofCode x).code = x := by
  decide

-- The fields of a selector word (30_encoding.md R55)

@[simp] theorem selState_selWord : ∀ (st : Code) (a d c : Bool),
    selState (selWord st a d c) = st := by decide

@[simp] theorem selArmFire_selWord : ∀ (st : Code) (a d c : Bool),
    selArmFire (selWord st a d c) = a := by decide

@[simp] theorem selDisarm_selWord : ∀ (st : Code) (a d c : Bool),
    selDisarm (selWord st a d c) = d := by decide

@[simp] theorem selCamSwitch_selWord : ∀ (st : Code) (a d c : Bool),
    selCamSwitch (selWord st a d c) = c := by decide

/-- A selector word is nothing but its four fields. -/
theorem selWord_of_fields : ∀ w : Sel,
    selWord (selState w) (selArmFire w) (selDisarm w) (selCamSwitch w) = w := by
  decide

-- The opcode map (30_encoding.md R56)

/-- A row does not depend on the operands that its instruction reads from the word. -/
theorem map_row_candidates (w : Sel) : (candidates w).map Instr.row = opcodeMap := rfl

/-- Two rows that both match a word agree wherever both read it. -/
theorem pattern_agree_of_hits {r r' : Row} {w : Sel} (h : r.hits w = true) (h' : r'.hits w = true) :
    r.pattern &&& r'.mask = r'.pattern &&& r.mask := by
  rw [Row.hits, beq_iff_eq] at h h'
  rw [← h, ← h', BitVec.and_assoc, BitVec.and_assoc, BitVec.and_comm r.mask]

/-- Any two rows of the map differ on some bit that both read, so no word matches both. -/
theorem opcodeMap_pairwise_disagree :
    opcodeMap.Pairwise (fun r r' => r.pattern &&& r'.mask ≠ r'.pattern &&& r.mask) := by
  decide

/-- No word matches two rows. -/
theorem length_filter_hits_le_one (w : Sel) :
    (opcodeMap.filter (fun r => r.hits w)).length ≤ 1 := by
  have hpair := opcodeMap_pairwise_disagree.filter (fun r => r.hits w)
  have hhits : ∀ r ∈ opcodeMap.filter (fun r => r.hits w), r.hits w = true :=
    fun r hr => (List.mem_filter.mp hr).2
  generalize opcodeMap.filter (fun r => r.hits w) = rows at hpair hhits ⊢
  match rows with
  | [] | [_] => simp
  | r :: r' :: rest =>
    have hagree := pattern_agree_of_hits (hhits r (by simp)) (hhits r' (by simp))
    exact absurd hagree (List.rel_of_pairwise_cons hpair (by simp))

/-- What a word decodes to is of a row of the map, and the word matches that row. -/
theorem row_of_decode {w : Sel} {i : Instr} (h : decode w = .ok i) :
    i.row ∈ opcodeMap ∧ i.row.hits w = true := by
  unfold decode at h
  split at h
  next j hfind =>
    cases h
    have hmem := List.mem_map_of_mem (f := Instr.row) (List.mem_of_find?_eq_some hfind)
    rw [map_row_candidates] at hmem
    exact ⟨hmem, List.find?_some (p := fun i : Instr => i.row.hits w) hfind⟩
  next => cases h

/-- Every selector word decodes: its state code is that of a state, and each word of a state picks a row. -/
theorem exists_decode (w : Sel) : ∃ i, decode w = .ok i := by
  obtain ⟨i, hdec, -⟩ := Machine.exists_decode_selWord (Ctrl.ofCode (selState w))
    (selArmFire w) (selDisarm w) (selCamSwitch w)
  rw [code_ofCode, selWord_of_fields] at hdec
  exact ⟨i, hdec⟩

end Sys2Proof

namespace Sys2Proof.Machine

-- Polarity (30_encoding.md R51)

@[simp] theorem normalise_armFire (pin : Bool) : normalise .armFire pin = !pin := by
  simp [normalise, activeLow]

@[simp] theorem normalise_disarm (pin : Bool) : normalise .disarm pin = !pin := by
  simp [normalise, activeLow]

@[simp] theorem normalise_camSwitch (pin : Bool) : normalise .camSwitch pin = pin := by
  simp [normalise, activeLow]

/-- The inversion of a channel undoes itself. -/
@[simp] theorem normalise_normalise (c : Chan) (level : Bool) :
    normalise c (normalise c level) = level := by
  simp [normalise]

-- The levels a tick reads, and what an edge writes into the diagnostic registers

section edge
variable {w : Nat} (window : Nat) (r : Regs w) (inp : Inputs w)

/-- The debounced value of a tick is that of the filter as updated in the tick (30_encoding.md R55). -/
theorem debounced_eq_update_stable (c : Chan) : r.debounced window inp c =
    ((r.filter c).update window (normalise c (inp.pin c)) inp.now).stable := rfl

/-- The strobe after an edge tells whether the edge was a tick that changed the state
(43_control_loop.md R135). -/
theorem edge_diagValid : (r.edge window inp).diagValid =
    (!inp.rst && decide ((r.edge window inp).state ≠ r.state)) := by
  cases hrst : inp.rst with
  | true => simp [edge_of_reset _ _ _ hrst]
  | false => simp [edge_of_tick _ _ _ hrst, Regs.tick]

end edge

/-- A tick that changes the state writes the new state's code and the raw cam level into the payload
(43_control_loop.md R135). -/
theorem edge_payload_of_change {w window : Nat} {r : Regs w} {inp : Inputs w} (hrst : inp.rst = false)
    (hne : (r.edge window inp).state ≠ r.state) :
    (r.edge window inp).diagState = (r.edge window inp).state.code ∧
      (r.edge window inp).diagCamRaw = inp.camSwitchPin := by
  rw [edge_of_tick _ _ _ hrst, Regs.tick] at hne ⊢
  rw [tickTo_state] at hne
  simp [hne]

-- The sink's event (30_encoding.md R54)

section event
variable {w : Nat} {r : Regs w} (n : Nat)

theorem event_of_strobe (h : r.diagValid = true) :
    r.outputs.event n = some (r.diagState.setWidth n, r.diagCamRaw) := if_pos h

theorem event_of_no_strobe (h : r.diagValid = false) : r.outputs.event n = none :=
  if_neg (by simp [Regs.outputs, h])

end event

/-- No command has the code `0b11` (30_encoding.md R59). -/
theorem servoCode_ne_three (c : ServoCmd) : servoCode c ≠ 0b11#2 := by
  cases c <;> decide

-- The statements

/-- Settles O41: the strobe decides whether there is an event (`edge_diagValid`), a change writes its
payload (`edge_payload_of_change`), and widening a code keeps its number. -/
theorem sinkReceivesTheCodeOfEveryNewState : Obligations.SinkReceivesTheCodeOfEveryNewState := by
  unfold Obligations.SinkReceivesTheCodeOfEveryNewState
  intro s t n hn hstep
  rw [regs_of_step hstep]
  have hstrobe := edge_diagValid Config.window s.regs s.input
  constructor
  · rintro ⟨hrst, hne⟩
    obtain ⟨hcode, hcam⟩ := edge_payload_of_change hrst hne
    refine ⟨_, ?_, BitVec.toNat_setWidth_of_le hn⟩
    rw [event_of_strobe n (by simp [hstrobe, hrst, hne]), hcode, hcam]
  · rintro (hrst | hsame)
    · exact event_of_no_strobe n (by simp [hstrobe, hrst])
    · exact event_of_no_strobe n (by simp [hstrobe, hsame])

/-- Settles O2: the word decodes to an instruction of a row it matches, and it matches no second one. -/
theorem everySelectorWordIsInExactlyOneRow : Obligations.EverySelectorWordIsInExactlyOneRow := by
  unfold Obligations.EverySelectorWordIsInExactlyOneRow
  refine ⟨rfl, fun w => ?_⟩
  obtain ⟨i, hdec⟩ := exists_decode w
  obtain ⟨hmem, hhits⟩ := row_of_decode hdec
  have hpos : 0 < (opcodeMap.filter (fun r => r.hits w)).length :=
    List.length_pos_of_mem (List.mem_filter.mpr ⟨hmem, hhits⟩)
  exact ⟨le_antisymm (length_filter_hits_le_one w) hpos,
    ⟨Ctrl.ofCode (selState w), code_ofCode _⟩, i, hdec, hmem, hhits⟩

/-- Settles O5: the codes in order by evaluation, the bijection by its two inverse laws. -/
theorem stateCodesAreInListingOrder : Obligations.StateCodesAreInListingOrder := by
  unfold Obligations.StateCodesAreInListingOrder
  exact ⟨rfl, ofCode_code, code_ofCode⟩

/-- Settles O6: the fields of a selector word are what it is made of, here the updated levels of the
three channels at their polarity. -/
theorem selectorHoldsStateAndUpdatedLevels : Obligations.SelectorHoldsStateAndUpdatedLevels := by
  unfold Obligations.SelectorHoldsStateAndUpdatedLevels
  intro w window r inp sel
  refine ⟨selState_selWord _ _ _ _, (selArmFire_selWord _ _ _ _).trans ?_,
    (selDisarm_selWord _ _ _ _).trans ?_, (selCamSwitch_selWord _ _ _ _).trans ?_⟩
  all_goals simp [debounced_eq_update_stable]

/-- Settles O9: each channel by its polarity; the idle level is the normal form of "unasserted", and
normalising it again gives that back. -/
theorem pinsAreAssertedAtTheirPolarity : Obligations.PinsAreAssertedAtTheirPolarity := by
  unfold Obligations.PinsAreAssertedAtTheirPolarity
  exact ⟨by simp, by simp, by simp, normalise_armFire false, normalise_disarm false,
    normalise_camSwitch false, fun c => normalise_normalise c false⟩

/-- Settles O47: the three commands by evaluation; the ports show the pair of the command that `M` gives
the state. -/
theorem everyServoCodeHasItsPulseWidth : Obligations.EveryServoCodeHasItsPulseWidth := by
  unfold Obligations.EveryServoCodeHasItsPulseWidth
  exact ⟨⟨rfl, rfl, rfl⟩, ⟨rfl, rfl, rfl⟩, ⟨rfl, rfl, rfl⟩,
    fun w r => ⟨(M r.state).1, rfl, rfl, servoCode_ne_three _⟩⟩

end Sys2Proof.Machine
end

section
/-! PROOFS. The statements of 40_debounce_filter.md about UPDATE and its time comparison. They rest on the
comparison as an order on the wrapped difference, and on the record that each stage of UPDATE leaves. -/

namespace Sys2Proof.Machine

-- The time comparison (40_debounce_filter.md R72)

section comparison
variable {w : Nat} (window : Nat) (now lct d : Instant w)

/-- The wrapped difference as a number: the borrow, if any, is `2^TIME_W`. -/
theorem toNat_subTime : (subTime now lct).toNat = (now.toNat + 2 ^ w - lct.toNat) % 2 ^ w := by
  have hlct : lct.toNat < 2 ^ w := lct.isLt
  rw [subTime, BitVec.toNat_sub]
  congr 1
  omega

/-- The difference of a time from one `d` counts earlier is `d`, also where the sum has wrapped. -/
@[simp] theorem subTime_add_self : subTime (lct + d) lct = d := by
  rw [subTime, BitVec.add_comm, BitVec.add_sub_cancel]

theorem exceedsWindow_iff :
    exceedsWindow window now lct = true ↔ window < (subTime now lct).toNat := by
  rw [exceedsWindow, decide_eq_true_iff]

theorem exceedsWindow_eq_false_iff :
    exceedsWindow window now lct = false ↔ (subTime now lct).toNat ≤ window := by
  rw [exceedsWindow, decide_eq_false_iff_not, Nat.not_lt]

end comparison

-- The stages of UPDATE (40_debounce_filter.md R71)

section stages
variable {w : Nat} (window : Nat) (f : DebounceFilter w) (raw : Bool) (now : Instant w)

/-- The record after step 1: the two registers that a capture writes, and `stable` as it was. -/
theorem capture_eq : f.capture raw now =
    ⟨f.stable, if raw ≠ f.last then raw else f.last, if raw ≠ f.last then now else f.lct⟩ := by
  by_cases hsame : raw = f.last <;> simp [DebounceFilter.capture, hsame]

/-- The record after step 2: the one register that an acceptance writes, and the other two as they were. -/
theorem accept_eq : f.accept window now =
    ⟨if f.stable ≠ f.last ∧ window < (subTime now f.lct).toNat then f.last else f.stable,
      f.last, f.lct⟩ := by
  have hguard : (f.stable != f.last && exceedsWindow window now f.lct) = true ↔
      f.stable ≠ f.last ∧ window < (subTime now f.lct).toNat := by
    rw [Bool.and_eq_true, bne_iff_ne, exceedsWindow_iff]
  by_cases haccept : f.stable ≠ f.last ∧ window < (subTime now f.lct).toNat
  · rw [if_pos haccept]
    exact if_pos (hguard.mpr haccept)
  · rw [if_neg haccept]
    exact if_neg (mt hguard.mp haccept)

end stages

-- The statements

/-- Settles O13: the comparison is an order on the wrapped difference; at `lct` plus a count the
difference is that count modulo `2^TIME_W`, so never above it, and the count itself where it fits. -/
theorem windowComparisonIsModularAndStrict : Obligations.WindowComparisonIsModularAndStrict := by
  unfold Obligations.WindowComparisonIsModularAndStrict
  intro w window now lct
  refine ⟨?_, ?_, fun hfits => ?_⟩
  · rw [exceedsWindow_iff, toNat_subTime]
  · rw [exceedsWindow_eq_false_iff, subTime_add_self, BitVec.toNat_ofNat]
    exact Nat.mod_le window (2 ^ w)
  · rw [exceedsWindow_iff, subTime_add_self, BitVec.toNat_ofNat, Nat.mod_eq_of_lt hfits]
    exact Nat.lt_succ_self window

/-- Settles O12: UPDATE is the accept of the captured record, and the pseudocode computes both stages'
records register by register. -/
theorem updateCapturesThenAccepts : Obligations.UpdateCapturesThenAccepts := by
  unfold Obligations.UpdateCapturesThenAccepts
  intro w window f raw now last1 lct1 elapsed stable1
  have hcapture : f.capture raw now = ⟨f.stable, last1, lct1⟩ := capture_eq f raw now
  calc f.update window raw now
      = (f.capture raw now).accept window now := rfl
    _ = (⟨f.stable, last1, lct1⟩ : DebounceFilter w).accept window now := by rw [hcapture]
    _ = ⟨stable1, last1, lct1⟩ := accept_eq window ⟨f.stable, last1, lct1⟩ now

end Sys2Proof.Machine
end

section
/-! PROOFS. The row rules of 41_transition_table.md. They rest on three facts: a mask reads a word field by
field, so a row that reads the whole state code picks the words of one state under a guard on the three
levels; no word matches two rows, so a row whose mask and match the selector word meets is the one that
the step runs; and every row makes a tick to its own next state. -/

namespace Sys2Proof

-- Masks and matches, field by field (30_encoding.md R55, R56)

section fields
variable (w v : Sel)

@[simp] theorem selState_and : selState (w &&& v) = selState w &&& selState v :=
  BitVec.extractLsb'_and

@[simp] theorem selArmFire_and : selArmFire (w &&& v) = (selArmFire w && selArmFire v) :=
  BitVec.getLsbD_and

@[simp] theorem selDisarm_and : selDisarm (w &&& v) = (selDisarm w && selDisarm v) :=
  BitVec.getLsbD_and

@[simp] theorem selCamSwitch_and : selCamSwitch (w &&& v) = (selCamSwitch w && selCamSwitch v) :=
  BitVec.getLsbD_and

/-- Two selector words are equal exactly when their four fields are. -/
theorem sel_eq_iff_fields : w = v ↔
    selState w = selState v ∧ selArmFire w = selArmFire v ∧ selDisarm w = selDisarm v ∧
      selCamSwitch w = selCamSwitch v := by
  constructor
  · rintro rfl
    exact ⟨rfl, rfl, rfl, rfl⟩
  · rintro ⟨hstate, harm, hdis, hcam⟩
    rw [← selWord_of_fields w, ← selWord_of_fields v, hstate, harm, hdis, hcam]

end fields

theorem code_injective : Function.Injective Ctrl.code :=
  Function.LeftInverse.injective ofCode_code

/-- A mask that reads the whole state code, with the code of `cur` to match, picks the words of `cur` whose
three levels agree with the match where the mask reads them. -/
theorem selWord_and_eq_iff {mask pattern : Sel} {cur : Ctrl} (hmask : selState mask = 0b111#3)
    (hpattern : selState pattern = cur.code) (st : Ctrl) (a d c : Bool) :
    selWord st.code a d c &&& mask = pattern ↔
      st = cur ∧ (a && selArmFire mask) = selArmFire pattern ∧
        (d && selDisarm mask) = selDisarm pattern ∧
        (c && selCamSwitch mask) = selCamSwitch pattern := by
  have hall : st.code &&& 0b111#3 = st.code := BitVec.and_allOnes
  simp [sel_eq_iff_fields, hmask, hpattern, hall, code_injective.eq_iff]

-- The row that a word picks (30_encoding.md R56, R57)

/-- Every instruction's row is one of the map, whatever its operands are. -/
theorem row_mem_opcodeMap (i : Instr) : i.row ∈ opcodeMap := by
  cases i <;> simp [opcodeMap, candidates, Instr.row]

/-- No word matches the rows of two instructions, but for their operands. -/
theorem row_eq_of_hits {i j : Instr} {w : Sel} (hi : i.row.hits w = true) (hj : j.row.hits w = true) :
    i.row = j.row := by
  have hsymm : Std.Symm fun r r' : Row => r.pattern &&& r'.mask ≠ r'.pattern &&& r.mask :=
    ⟨fun _ _ hne => hne.symm⟩
  have hdisagree := opcodeMap_pairwise_disagree.forall (row_mem_opcodeMap i) (row_mem_opcodeMap j)
  by_contra hne
  exact hdisagree hne (pattern_agree_of_hits hi hj)

end Sys2Proof

namespace Sys2Proof.Machine

/-- At a tick whose selector word matches a row, the step runs that row. -/
theorem step_eq_exec_of_hits {i : Instr} {s : State} (hrst : s.input.rst = false)
    (hhits : i.row.hits s.selector = true) : step s = exec i s := by
  obtain ⟨j, hdec⟩ := exists_decode s.selector
  have hrow : j.row = i.row := row_eq_of_hits (row_of_decode hdec).2 hhits
  rw [step_of_tick s hrst, hdec, exec_eq_tickRow i s, ← hrow]
  exact exec_eq_tickRow j s

/-- The servo port shows the command that `M` gives the state (43_control_loop.md R136). -/
theorem outputs_servoCmd {w : Nat} (r : Regs w) : r.outputs.servoCmd = servoCode (M r.state).1 := rfl

/-- A row runs as its rule says once three things stand in R56's table: the mask reads the whole state
code; the match holds the code of `cur`; and the guard is what mask and match ask of the three levels. The
servo command then goes from that of `cur` to that of the row's next state. -/
theorem rowRule_of_row {i : Instr} {mnemonic : String} {mask pattern : Sel} {cur next : Ctrl}
    {guard : Bool → Bool → Bool → Bool} (hrow : i.row = ⟨mnemonic, mask, pattern, next⟩)
    (hmask : selState mask = 0b111#3) (hpattern : selState pattern = cur.code)
    (hguard : ∀ a d c, guard a d c = true ↔
      (a && selArmFire mask) = selArmFire pattern ∧ (d && selDisarm mask) = selDisarm pattern ∧
        (c && selCamSwitch mask) = selCamSwitch pattern) :
    RowRule i mask pattern cur guard next (M cur).1 (M next).1 := by
  intro s hrst
  have hpicks := selWord_and_eq_iff hmask hpattern s.regs.state
    (s.regs.debounced Config.window s.input .armFire)
    (s.regs.debounced Config.window s.input .disarm)
    (s.regs.debounced Config.window s.input .camSwitch)
  refine ⟨by rw [hguard]; exact hpicks, fun hmatch => ?_⟩
  have hcur : s.regs.state = cur := (hpicks.mp hmatch).1
  have hhits : i.row.hits s.selector = true := by rw [hrow]; exact beq_iff_eq.mpr hmatch
  have hexec : exec i s = .next (s.afterEdge (s.regs.tickTo Config.window next s.input)) := by
    rw [exec_eq_tickRow, hrow, tickRow_next]
  have heffect := tickRow_effect (tickRow_next next s)
  refine ⟨_, hexec, (step_eq_exec_of_hits hrst hhits).trans hexec, heffect, ?_, ?_⟩
  · rw [outputs_servoCmd, hcur]
  · rw [outputs_servoCmd, heffect.state]

-- The three states without a disarm guard (41_transition_table.md R114)

section noDisarmGuard
variable (armFire disarm camSwitch : Bool)

theorem T_idleAfterReset : T .idleAfterReset armFire disarm camSwitch =
    if armFire then .recockingAfterReset else .idleAfterReset := rfl

theorem T_decocking : T .decocking armFire disarm camSwitch =
    if camSwitch then .decocking else .resetting := by
  cases camSwitch <;> rfl

theorem T_resetting : T .resetting armFire disarm camSwitch =
    if camSwitch then .idleAfterReset else .resetting := rfl

end noDisarmGuard

-- The statements. Each row is an instance of `rowRule_of_row`, whose premises are facts of its line in R56's
-- table; the last one holds the guard against mask and match at the eight combinations of the levels.

/-- Settles O21: disarm wins over arm_fire, and cam_switch is not read. -/
theorem idleRowsRunAsTheirRulesSay : Obligations.IdleRowsRunAsTheirRulesSay := by
  unfold Obligations.IdleRowsRunAsTheirRulesSay
  exact ⟨fun _ _ => rowRule_of_row rfl rfl rfl (by decide),
    fun _ => rowRule_of_row rfl rfl rfl (by decide),
    fun _ => rowRule_of_row rfl rfl rfl (by decide)⟩

/-- Settles O22: disarm wins over cam_switch, and arm_fire is not read. -/
theorem cockingRowsRunAsTheirRulesSay : Obligations.CockingRowsRunAsTheirRulesSay := by
  unfold Obligations.CockingRowsRunAsTheirRulesSay
  exact ⟨fun _ _ => rowRule_of_row rfl rfl rfl (by decide),
    fun _ => rowRule_of_row rfl rfl rfl (by decide),
    fun _ => rowRule_of_row rfl rfl rfl (by decide)⟩

/-- Settles O23: disarm wins over arm_fire, and cam_switch is not read. -/
theorem cockedRowsRunAsTheirRulesSay : Obligations.CockedRowsRunAsTheirRulesSay := by
  unfold Obligations.CockedRowsRunAsTheirRulesSay
  exact ⟨fun _ _ => rowRule_of_row rfl rfl rfl (by decide),
    fun _ => rowRule_of_row rfl rfl rfl (by decide),
    fun _ => rowRule_of_row rfl rfl rfl (by decide)⟩

/-- Settles O24: disarm wins over a cam_switch gone low, and arm_fire is not read. -/
theorem firingRowsRunAsTheirRulesSay : Obligations.FiringRowsRunAsTheirRulesSay := by
  unfold Obligations.FiringRowsRunAsTheirRulesSay
  exact ⟨fun _ _ => rowRule_of_row rfl rfl rfl (by decide),
    fun _ => rowRule_of_row rfl rfl rfl (by decide),
    fun _ => rowRule_of_row rfl rfl rfl (by decide)⟩

/-- Settles O25: both rows read cam_switch alone, and both keep the servo at REVERSE. -/
theorem decockingRowsRunAsTheirRulesSay : Obligations.DecockingRowsRunAsTheirRulesSay := by
  unfold Obligations.DecockingRowsRunAsTheirRulesSay
  exact ⟨fun _ _ => rowRule_of_row rfl rfl rfl (by decide),
    fun _ _ => rowRule_of_row rfl rfl rfl (by decide)⟩

/-- Settles O26: both rows read cam_switch alone. -/
theorem resettingRowsRunAsTheirRulesSay : Obligations.ResettingRowsRunAsTheirRulesSay := by
  unfold Obligations.ResettingRowsRunAsTheirRulesSay
  exact ⟨fun _ _ => rowRule_of_row rfl rfl rfl (by decide),
    fun _ _ => rowRule_of_row rfl rfl rfl (by decide)⟩

/-- Settles O27: both rows read arm_fire alone. -/
theorem idleAfterResetRowsRunAsTheirRulesSay : Obligations.IdleAfterResetRowsRunAsTheirRulesSay := by
  unfold Obligations.IdleAfterResetRowsRunAsTheirRulesSay
  exact ⟨fun _ _ => rowRule_of_row rfl rfl rfl (by decide),
    fun _ _ => rowRule_of_row rfl rfl rfl (by decide)⟩

/-- Settles O28: disarm wins over a cam_switch gone low, and arm_fire is not read. -/
theorem recockingAfterResetRowsRunAsTheirRulesSay :
    Obligations.RecockingAfterResetRowsRunAsTheirRulesSay := by
  unfold Obligations.RecockingAfterResetRowsRunAsTheirRulesSay
  exact ⟨fun _ _ => rowRule_of_row rfl rfl rfl (by decide),
    fun _ => rowRule_of_row rfl rfl rfl (by decide),
    fun _ => rowRule_of_row rfl rfl rfl (by decide)⟩

/-- Settles O29: a tick writes `T` of the debounced levels (`edge_state`), and in these three states `T`
does not read disarm. -/
theorem threeStatesHaveNoDisarmGuard : Obligations.ThreeStatesHaveNoDisarmGuard := by
  unfold Obligations.ThreeStatesHaveNoDisarmGuard
  intro s t hrst hstep
  have htick : t.regs.state = T s.regs.state (s.regs.debounced Config.window s.input .armFire)
      (s.regs.debounced Config.window s.input .disarm)
      (s.regs.debounced Config.window s.input .camSwitch) := by
    rw [regs_of_step hstep, edge_of_tick _ _ _ hrst, tick_state]
  refine ⟨fun hcur => ?_, fun hcur => ?_, fun hcur => ?_⟩
  · rw [htick, hcur, T_idleAfterReset]
  · rw [htick, hcur, T_decocking]
  · rw [htick, hcur, T_resetting]

end Sys2Proof.Machine
end

section
/-! PROOFS. The statement of 42_servo_mapper.md. It rests on MAP's table, one lemma per command, and on the
three servo ports being decoded from the pair that MAP gives the state. -/

namespace Sys2Proof.Machine

-- MAP's table (42_servo_mapper.md R121 to R123)

section map
variable {st : Ctrl}

theorem M_eq_forward (h : st = .cocking ∨ st = .firing ∨ st = .recockingAfterReset) :
    M st = (.forward, true) := by
  obtain rfl | rfl | rfl := h <;> rfl

theorem M_eq_reverse (h : st = .decocking ∨ st = .resetting) : M st = (.reverse, true) := by
  obtain rfl | rfl := h <;> rfl

theorem M_eq_neutral (h : st = .idle ∨ st = .cocked ∨ st = .idleAfterReset) :
    M st = (.neutral, false) := by
  obtain rfl | rfl | rfl := h <;> rfl

end map

/-- The servo ports show the code and the pulse width of the command that MAP gives the state, and MAP's
indicator level (43_control_loop.md R136). -/
theorem servoPorts_of_M {w : Nat} {r : Regs w} {cmd : ServoCmd} {lit : Bool} (h : M r.state = (cmd, lit)) :
    r.outputs.servoCmd = servoCode cmd ∧ r.outputs.servoPulseUs = pulseUs cmd ∧
      r.outputs.indicator = lit := by
  simp [Regs.outputs, h]

-- The statement

/-- Settles O46: each group of states by its row of MAP's table, and the ports from that row; the codes and
the widths are those of R59. -/
theorem servoPortsFollowTheStateTable : Obligations.ServoPortsFollowTheStateTable := by
  unfold Obligations.ServoPortsFollowTheStateTable
  intro w r
  refine ⟨fun hstate => ?_, fun hstate => ?_, fun hstate => ?_⟩
  · have hmap := M_eq_forward hstate
    exact ⟨hmap, servoPorts_of_M hmap⟩
  · have hmap := M_eq_reverse hstate
    exact ⟨hmap, servoPorts_of_M hmap⟩
  · have hmap := M_eq_neutral hstate
    exact ⟨hmap, servoPorts_of_M hmap⟩

end Sys2Proof.Machine
end

section
/-! PROOFS. The statements of 43_control_loop.md about the tick and the output equations. They rest on the
step being the edge function, and on the record that a tick leaves. -/

namespace Sys2Proof.Machine

/-- The record after a tick to `next`. A tick that keeps the state leaves `next` in it all the same, so
`state` needs no case (43_control_loop.md R134). -/
theorem tickTo_eq {w : Nat} (window : Nat) (next : Ctrl) (r : Regs w) (inp : Inputs w) :
    r.tickTo window next inp =
      { armFire := r.filterAfter window inp .armFire
        disarm := r.filterAfter window inp .disarm
        camSwitch := r.filterAfter window inp .camSwitch
        state := next
        diagValid := decide (next ≠ r.state)
        diagState := if next ≠ r.state then next.code else r.diagState
        diagCamRaw := if next ≠ r.state then inp.camSwitchPin else r.diagCamRaw } := by
  have hstate : (if next ≠ r.state then next else r.state) = next := tickTo_state window next r inp
  rw [Regs.tickTo, hstate]

/-- A step outside reset completes, with the registers of the tick (43_control_loop.md R130). -/
theorem exists_step_tick {s : State} (hrst : s.input.rst = false) :
    ∃ t, step s = .next t ∧ t.regs = s.regs.tick Config.window s.input :=
  ⟨_, step_eq_edge s, edge_of_tick _ _ _ hrst⟩

-- The statements

/-- Settles O34: the step, run by rows, is the tick by `T`; its filters are UPDATE of the pins at their
polarity, and their levels are those that `T` reads. -/
theorem stepOutsideResetIsTheTick : Obligations.StepOutsideResetIsTheTick := by
  unfold Obligations.StepOutsideResetIsTheTick
  intro s hrst inp fAF fDA fCS next
  have hAF : s.regs.filterAfter Config.window inp .armFire = fAF := rfl
  have hDA : s.regs.filterAfter Config.window inp .disarm = fDA := rfl
  have hCS : s.regs.filterAfter Config.window inp .camSwitch = fCS := rfl
  have htick : s.regs.tick Config.window inp = s.regs.tickTo Config.window next inp := rfl
  obtain ⟨t, hstep, hregs⟩ := exists_step_tick hrst
  refine ⟨t, hstep, ?_⟩
  rw [hregs, htick, tickTo_eq, hAF, hDA, hCS]

/-- Settles O48: the step completes with the registers of the edge, and the output equations hold of any
registers by their definition. -/
theorem portsAreDrivenFromTheRegisters : Obligations.PortsAreDrivenFromTheRegisters := by
  unfold Obligations.PortsAreDrivenFromTheRegisters
  exact fun s => ⟨s.afterEdge (s.regs.edge Config.window s.input), step_eq_edge s, rfl⟩

end Sys2Proof.Machine
end

section
/-! PROOFS. The statements of 30_encoding.md about decode and encode. They rest on the candidates of a word:
a candidate takes its operands from the word, so it is the decoding of the word exactly when its row matches,
and then nothing of the word is lost in it. -/

namespace Sys2Proof

-- The candidates of a word (30_encoding.md R56)

/-- Decoding answers a candidate of the word whose row the word matches. -/
theorem candidate_of_decode {w : Sel} {i : Instr} (h : decode w = .ok i) :
    i ∈ candidates w ∧ i.row.hits w = true := by
  refine ⟨?_, (row_of_decode h).2⟩
  unfold decode at h
  split at h
  next j hfind =>
    cases h
    exact List.mem_of_find?_eq_some hfind
  next => cases h

theorem opcodeMap_nodup : opcodeMap.Nodup := by
  decide

/-- Two candidates of one word are of two rows. -/
theorem candidate_eq_of_row_eq {w : Sel} {i j : Instr} (hi : i ∈ candidates w) (hj : j ∈ candidates w)
    (hrow : i.row = j.row) : i = j :=
  List.inj_on_of_nodup_map (map_row_candidates w ▸ opcodeMap_nodup) hi hj hrow

/-- A candidate whose row the word matches is what the word decodes to: no second row matches. -/
theorem decode_of_candidate {w : Sel} {i : Instr} (hmem : i ∈ candidates w)
    (hhits : i.row.hits w = true) : decode w = .ok i := by
  obtain ⟨j, hdec⟩ := exists_decode w
  obtain ⟨hmem', hhits'⟩ := candidate_of_decode hdec
  rw [hdec, candidate_eq_of_row_eq hmem hmem' (row_eq_of_hits hhits hhits')]

-- The encoder against the rows

/-- The word of an instruction matches its row (the family `EncodedInItsRow`, over all rows). -/
theorem encode_hits : ∀ i : Instr, i.row.hits (encode i) = true
  | .idleDisarm a c => Laws.EncodedInItsRow.idleDisarm a c
  | .idleArm c => Laws.EncodedInItsRow.idleArm c
  | .idleHold c => Laws.EncodedInItsRow.idleHold c
  | .cockingDisarm a c => Laws.EncodedInItsRow.cockingDisarm a c
  | .cockingCam a => Laws.EncodedInItsRow.cockingCam a
  | .cockingHold a => Laws.EncodedInItsRow.cockingHold a
  | .cockedDisarm a c => Laws.EncodedInItsRow.cockedDisarm a c
  | .cockedArm c => Laws.EncodedInItsRow.cockedArm c
  | .cockedHold c => Laws.EncodedInItsRow.cockedHold c
  | .firingDisarm a c => Laws.EncodedInItsRow.firingDisarm a c
  | .firingNocam a => Laws.EncodedInItsRow.firingNocam a
  | .firingHold a => Laws.EncodedInItsRow.firingHold a
  | .decockingNocam a d => Laws.EncodedInItsRow.decockingNocam a d
  | .decockingHold a d => Laws.EncodedInItsRow.decockingHold a d
  | .resettingCam a d => Laws.EncodedInItsRow.resettingCam a d
  | .resettingHold a d => Laws.EncodedInItsRow.resettingHold a d
  | .idleAfterResetArm d c => Laws.EncodedInItsRow.idleAfterResetArm d c
  | .idleAfterResetHold d c => Laws.EncodedInItsRow.idleAfterResetHold d c
  | .recockingAfterResetDisarm a c => Laws.EncodedInItsRow.recockingAfterResetDisarm a c
  | .recockingAfterResetNocam a => Laws.EncodedInItsRow.recockingAfterResetNocam a
  | .recockingAfterResetHold a => Laws.EncodedInItsRow.recockingAfterResetHold a

/-- An instruction is the candidate of its own row for its own word: its operands stand in the word at
the places they are read from. -/
theorem mem_candidates_encode (i : Instr) : i ∈ candidates (encode i) := by
  cases i <;> simp [candidates, encode]

/-- A candidate's word agrees with the word outside the mask of its row, where its operands stand. -/
theorem encode_candidate_and_not_mask {w : Sel} : ∀ i ∈ candidates w,
    encode i &&& ~~~i.row.mask = w &&& ~~~i.row.mask := by
  simp only [candidates, encode, Instr.row, sel_eq_iff_fields, selState_and, selArmFire_and,
    selDisarm_and, selCamSwitch_and, selState_selWord, selArmFire_selWord, selDisarm_selWord,
    selCamSwitch_selWord, List.forall_mem_cons]
  simp [selState, selArmFire, selDisarm, selCamSwitch]

/-- A word is what a mask reads of it, and the rest. -/
theorem and_or_and_not (w mask : Sel) : (w &&& mask) ||| (w &&& ~~~mask) = w := by
  ext
  simp [← Bool.and_or_distrib_left]

theorem decode_encode (i : Instr) : decode (encode i) = .ok i :=
  decode_of_candidate (mem_candidates_encode i) (encode_hits i)

/-- Where the row's mask reads, both words are the row's match; elsewhere both hold the operands. -/
theorem encode_of_decode {w : Sel} {i : Instr} (h : decode w = .ok i) : encode i = w := by
  obtain ⟨hmem, hhits⟩ := candidate_of_decode h
  have hinside : encode i &&& i.row.mask = w &&& i.row.mask :=
    (beq_iff_eq.mp (encode_hits i)).trans (beq_iff_eq.mp hhits).symm
  have houtside := encode_candidate_and_not_mask i hmem
  rw [← and_or_and_not (encode i) i.row.mask, hinside, houtside, and_or_and_not]

-- The byte form (notes/assumptions/15.md)

theorem extractLsb'_high_of_byte : ∀ x : Sel, (0#2 ++ x).extractLsb' 6 2 = 0#2 := by
  decide

theorem extractLsb'_low_of_byte : ∀ x : Sel, (0#2 ++ x).extractLsb' 0 6 = x := by
  decide

/-- A byte with bits 7 and 6 zero decodes as the selector word in it. -/
theorem decodeBytes_of_sel {x : Sel} {i : Instr} (h : decode x = .ok i) (rest : List Byte) :
    decodeBytes ((0#2 ++ x) :: rest) = .ok (i, rest) := by
  rw [decodeBytes, if_pos (extractLsb'_high_of_byte x), extractLsb'_low_of_byte, h]

/-- The row that a word decodes to goes where `T` goes on the word's fields. -/
theorem next_of_decode {w : Sel} {i : Instr} (h : decode w = .ok i) : i.row.next =
    Machine.T (Ctrl.ofCode (selState w)) (selArmFire w) (selDisarm w) (selCamSwitch w) := by
  obtain ⟨j, hdec, hnext⟩ := Machine.exists_decode_selWord (Ctrl.ofCode (selState w))
    (selArmFire w) (selDisarm w) (selCamSwitch w)
  rw [code_ofCode, selWord_of_fields, h] at hdec
  cases hdec
  exact hnext

-- The statements

/-- Settles O1: both directions rest on the candidates of a word, and a byte decodes as the word in it. -/
theorem decodeAndEncodeAgree : Obligations.DecodeAndEncodeAgree := by
  unfold Obligations.DecodeAndEncodeAgree
  exact ⟨fun i _ => decode_encode i, fun i rest _ => decodeBytes_of_sel (decode_encode i) rest,
    fun _ _ hdec => ⟨rfl, encode_of_decode hdec⟩⟩

/-- Settles O3: each word is the encoding of the row's instruction with the operands written out. -/
theorem exampleWordsDecodeToTheirRows : Obligations.ExampleWordsDecodeToTheirRows := by
  unfold Obligations.ExampleWordsDecodeToTheirRows
  exact ⟨decode_encode (.idleDisarm true true), decode_encode (.cockingCam true),
    decode_encode (.cockedArm true), decode_encode (.firingNocam true),
    decode_encode (.decockingHold true true), decode_encode (.resettingCam true true),
    decode_encode (.idleAfterResetArm true true),
    decode_encode (.recockingAfterResetDisarm true true)⟩

/-- Settles O4: the word is the selector word of the state of its code, for which row and `T` agree. -/
theorem disjointRowsAgreeWithFirstMatchForm : Obligations.DisjointRowsAgreeWithFirstMatchForm := by
  unfold Obligations.DisjointRowsAgreeWithFirstMatchForm
  exact fun _ _ => next_of_decode

end Sys2Proof
end

section
/-! PROOFS. The statements about a tick's pins and times in 30_encoding.md sections 2 and 7, and about the
parameters of 00_scope.md. They rest on the pin word being nothing but the three pins. -/

namespace Sys2Proof.Machine

section pins
variable {w : Nat} (now : Instant w) (p : PinWord)

/-- A pin word is nothing but its three bits. -/
theorem pinWord_of_bits : ∀ p : PinWord,
    BitVec.ofBool (p.getLsbD 2) ++ BitVec.ofBool (p.getLsbD 1) ++ BitVec.ofBool (p.getLsbD 0) = p := by
  decide

@[simp] theorem ofPins_rst : (Inputs.ofPins now p).rst = false := rfl
@[simp] theorem ofPins_now : (Inputs.ofPins now p).now = now := rfl
@[simp] theorem ofPins_pinWord : (Inputs.ofPins now p).pinWord = p := pinWord_of_bits p

/-- The three pins of a pin word stand at their bits (30_encoding.md R52). -/
theorem pins_of_pinWord (inp : Inputs w) :
    inp.pinWord.getLsbD 2 = inp.armFirePin ∧ inp.pinWord.getLsbD 1 = inp.disarmPin ∧
      inp.pinWord.getLsbD 0 = inp.camSwitchPin := by
  have hbits : ∀ a d c : Bool,
      (BitVec.ofBool a ++ BitVec.ofBool d ++ BitVec.ofBool c).getLsbD 2 = a ∧
      (BitVec.ofBool a ++ BitVec.ofBool d ++ BitVec.ofBool c).getLsbD 1 = d ∧
      (BitVec.ofBool a ++ BitVec.ofBool d ++ BitVec.ofBool c).getLsbD 0 = c := by decide
  exact hbits _ _ _

/-- A tick's inputs are nothing but `now` and the pin word (30_encoding.md R62). -/
theorem ofPins_pinWord_now {inp : Inputs w} (hrst : inp.rst = false) :
    Inputs.ofPins inp.now inp.pinWord = inp := by
  obtain ⟨harm, hdis, hcam⟩ := pins_of_pinWord inp
  rw [Inputs.ofPins, harm, hdis, hcam, ← hrst]

end pins

/-- The reference values stand in for an illegal free constant, so the timing is legal either way. -/
theorem timing_legal : Config.timing.Legal := by
  unfold Config.timing
  split
  next hlegal => exact hlegal
  next => decide

-- The statements

/-- Settles O7: the pair is read from the pins and the pins from the pair, bit by bit. -/
theorem tickIsThePairOfNowAndPinWord : Obligations.TickIsThePairOfNowAndPinWord := by
  unfold Obligations.TickIsThePairOfNowAndPinWord
  exact fun w => ⟨fun now p => congrArg (Prod.mk now) (ofPins_pinWord now p),
    fun inp hrst => ofPins_pinWord_now hrst⟩

/-- Settles O8: the block's timing is legal whatever the free constant is. -/
theorem openTimingIsLegal : Obligations.OpenTimingIsLegal := by
  unfold Obligations.OpenTimingIsLegal
  exact timing_legal

/-- Settles O10: NORMALISE inverts the two active-low pins and passes the third, at each of the eight pin
words. -/
theorem assertedWordIsPinWordXor : Obligations.AssertedWordIsPinWordXor := by
  unfold Obligations.AssertedWordIsPinWordXor
  intro w inp
  have hpins : ∀ a d c : Bool, BitVec.ofBool (!a) ++ BitVec.ofBool (!d) ++ BitVec.ofBool c =
      (BitVec.ofBool a ++ BitVec.ofBool d ++ BitVec.ofBool c) ^^^ 0b110#3 := by decide
  simp [Inputs.assertedWord, Inputs.pinWord, Inputs.raw, hpins]

end Sys2Proof.Machine
end

section
/-! PROOFS. The statements of 40_debounce_filter.md about runs of one filter, and those of
70_reset_and_hazards.md section 3 about its times. They rest on `update_cases`: what one tick can do. From it
come what a settled filter does, what a filter with a level pending does while that level is held, and, over
any run, that a level pending was captured in it and has been sampled ever since. -/

namespace Sys2Proof.Machine

-- Inversion (40_debounce_filter.md R70)

section inversion
variable {w : Nat} (window : Nat) (f : DebounceFilter w) (raw : Bool) (now : Instant w)

theorem inverted_capture :
    f.inverted.capture (!raw) now = (f.capture raw now).inverted := by
  by_cases hsame : raw = f.last <;> simp [DebounceFilter.capture, DebounceFilter.inverted, hsame]

theorem inverted_accept : f.inverted.accept window now = (f.accept window now).inverted := by
  by_cases haccept : f.stable ≠ f.last ∧ window < (subTime now f.lct).toNat <;>
    simp [accept_eq, DebounceFilter.inverted, haccept]

/-- Both stages of UPDATE compare levels with each other alone, so they commute with inversion. -/
theorem inverted_update :
    f.inverted.update window (!raw) now = (f.update window raw now).inverted := by
  rw [DebounceFilter.update, inverted_capture, inverted_accept, DebounceFilter.update]

theorem inverted_run (l : List (Bool × Instant w)) :
    f.inverted.run window (l.map (fun x => (!x.1, x.2))) = (f.run window l).inverted := by
  induction l generalizing f with
  | nil => rfl
  | cons x l ih => rw [List.map_cons, filter_run_cons, filter_run_cons, inverted_update, ih]

end inversion

-- One tick

section tick
variable {w window : Nat} {f : DebounceFilter w} {raw : Bool} {now : Instant w}

/-- A new raw level is captured with its time, and `stable` waits (40_debounce_filter.md R71). -/
theorem update_of_change (h : raw ≠ f.last) : f.update window raw now = ⟨f.stable, raw, now⟩ := by
  rcases update_cases window f raw now with ⟨-, hupd⟩ | ⟨hr, -⟩ | ⟨hr, -⟩ | ⟨hr, -⟩
  · exact hupd
  all_goals exact absurd hr h

/-- A settled filter that samples its own level keeps its record. -/
theorem update_of_settled (hset : f.Settled) (h : raw = f.last) : f.update window raw now = f := by
  rcases update_cases window f raw now with ⟨hr, -⟩ | ⟨-, -, hupd⟩ | ⟨-, -, -, hupd⟩ | ⟨-, hs, -⟩
  · exact absurd h hr
  · exact hupd
  · exact hupd
  · exact absurd hset hs

/-- No tick changes the debounced level of a settled filter. -/
theorem update_stable_of_settled (hset : f.Settled) : (f.update window raw now).stable = f.stable := by
  by_cases hr : raw = f.last
  · rw [update_of_settled hset hr]
  · rw [update_of_change hr]

/-- A level still pending is accepted past the window, and is kept pending before. -/
theorem update_of_pending (hpend : f.stable ≠ f.last) (h : raw = f.last) :
    f.update window raw now =
      if window < (subTime now f.lct).toNat then ⟨f.last, f.last, f.lct⟩ else f := by
  rcases update_cases window f raw now with ⟨hr, -⟩ | ⟨-, hs, -⟩ | ⟨-, -, he, hupd⟩ | ⟨-, -, he, hupd⟩
  · exact absurd h hr
  · exact absurd hs hpend
  · rw [hupd, if_neg (by rw [exceedsWindow_eq_false_iff] at he; omega)]
  · rw [hupd, if_pos (exceedsWindow_iff window now f.lct |>.mp he)]

/-- `stable` changes only at an acceptance, of the level already in `last` (40_debounce_filter.md R73). -/
theorem accepted_of_stable_ne (h : (f.update window raw now).stable ≠ f.stable) :
    raw = f.last ∧ f.stable ≠ f.last ∧ window < (subTime now f.lct).toNat ∧
      f.update window raw now = ⟨f.last, f.last, f.lct⟩ := by
  rcases update_cases window f raw now with ⟨-, hupd⟩ | ⟨-, -, hupd⟩ | ⟨-, -, -, hupd⟩ | ⟨hr, hs, he, hupd⟩
  · exact absurd (by rw [hupd]) h
  · exact absurd (by rw [hupd]) h
  · exact absurd (by rw [hupd]) h
  · exact ⟨hr, hs, (exceedsWindow_iff window now f.lct).mp he, hupd⟩

end tick

-- A level held over a run (40_debounce_filter.md R78)

section held
variable {w window : Nat} {f : DebounceFilter w} {l : List (Bool × Instant w)}

theorem run_of_settled_held (hset : f.Settled) (hheld : ∀ x ∈ l, x.1 = f.last) : f.run window l = f := by
  induction l with
  | nil => rfl
  | cons x l ih =>
    obtain ⟨hx, hl⟩ := List.forall_mem_cons.mp hheld
    rw [filter_run_cons, update_of_settled hset hx, ih hl]

/-- A level pending and held is the stable one exactly if some tick was past the window. -/
theorem run_stable_of_pending_held (hpend : f.stable ≠ f.last) (hheld : ∀ x ∈ l, x.1 = f.last) :
    (f.run window l).stable = f.last ↔ ∃ x ∈ l, window < (subTime x.2 f.lct).toNat := by
  induction l with
  | nil => simpa using hpend
  | cons x l ih =>
    obtain ⟨hx, hl⟩ := List.forall_mem_cons.mp hheld
    rw [filter_run_cons, update_of_pending hpend hx]
    by_cases hpast : window < (subTime x.2 f.lct).toNat
    · have hacc : (⟨f.last, f.last, f.lct⟩ : DebounceFilter w).run window l = ⟨f.last, f.last, f.lct⟩ :=
        run_of_settled_held rfl hl
      simp [hpast, hacc]
    · rw [if_neg hpast, ih hl]
      simp [hpast]

variable {v : Bool}

/-- A level that comes at a tick `k` and stays, where another is stable: it is pending since `k`. -/
theorem run_stable_of_held_change (nowK : Instant w) (hlast : f.last ≠ v) (hstable : f.stable ≠ v)
    (hheld : ∀ x ∈ l, x.1 = v) :
    (f.run window ((v, nowK) :: l)).stable = v ↔ ∃ x ∈ l, window < (subTime x.2 nowK).toNat := by
  rw [filter_run_cons, update_of_change (Ne.symm hlast)]
  exact run_stable_of_pending_held (f := ⟨f.stable, v, nowK⟩) hstable hheld

/-- A level that comes back at a tick `k` and stays, where it is stable already. -/
theorem run_of_held_return (nowK : Instant w) (hlast : f.last ≠ v) (hstable : f.stable = v)
    (hheld : ∀ x ∈ l, x.1 = v) : (f.run window ((v, nowK) :: l)).stable = v := by
  rw [filter_run_cons, update_of_change (Ne.symm hlast),
    run_of_settled_held (f := ⟨f.stable, v, nowK⟩) hstable hheld]
  exact hstable

end held

/-- Under `TimeMonotone`, the wrapped difference is the elapsed true time (70_reset_and_hazards.md R179). -/
theorem toNat_subTime_ofNat {w earlier later : Nat} (hle : earlier ≤ later)
    (hspan : later - earlier < 2 ^ w) :
    (subTime (BitVec.ofNat w later) (BitVec.ofNat w earlier)).toNat = later - earlier := by
  have hlater : BitVec.ofNat w later = BitVec.ofNat w earlier + BitVec.ofNat w (later - earlier) := by
    rw [← BitVec.ofNat_add, Nat.add_sub_cancel' hle]
  rw [hlater, subTime_add_self, BitVec.toNat_ofNat, Nat.mod_eq_of_lt hspan]

-- Where a pending level comes from (40_debounce_filter.md R76)

/-- In the run over `l`, the sample `a` was a change of `last`, and every later one has its level. -/
def CapturedAndHeld {w : Nat} (window : Nat) (f : DebounceFilter w) (l : List (Bool × Instant w))
    (a : Bool × Instant w) : Prop :=
  ∃ pre mid, l = pre ++ a :: mid ∧ (f.run window pre).last ≠ a.1 ∧ ∀ y ∈ mid, y.1 = a.1

theorem CapturedAndHeld.append {w window : Nat} {f : DebounceFilter w} {l : List (Bool × Instant w)}
    {a x : Bool × Instant w} (h : CapturedAndHeld window f l a) (hx : x.1 = a.1) :
    CapturedAndHeld window f (l ++ [x]) a := by
  obtain ⟨pre, mid, rfl, hchange, hheld⟩ := h
  refine ⟨pre, mid ++ [x], by simp, hchange, fun y hy => ?_⟩
  obtain hy | hy := List.mem_append.mp hy
  · exact hheld y hy
  · rwa [List.mem_singleton.mp hy]

/-- After any run from a settled filter, either nothing is pending, or what `last` and `lct` hold was captured
in the run and has been sampled ever since. -/
theorem settled_or_captured {w window : Nat} {f : DebounceFilter w} (hset : f.Settled)
    (l : List (Bool × Instant w)) :
    (f.run window l).Settled ∨
      ∃ a, CapturedAndHeld window f l a ∧ (f.run window l).last = a.1 ∧ (f.run window l).lct = a.2 := by
  induction l using List.reverseRecOn with
  | nil => exact .inl hset
  | append_singleton l x ih =>
    rw [filter_run_append, filter_run_cons, filter_run_nil]
    rcases update_cases window (f.run window l) x.1 x.2 with
      ⟨hr, hupd⟩ | ⟨-, hs, hupd⟩ | ⟨hr, hs, -, hupd⟩ | ⟨-, -, -, hupd⟩
    case inl => exact .inr ⟨x, ⟨l, [], rfl, Ne.symm hr, by simp⟩, by rw [hupd], by rw [hupd]⟩
    case inr.inl => exact .inl (by rwa [hupd])
    case inr.inr.inl =>
      obtain hset' | ⟨a, hcap, hlast, hlct⟩ := ih
      · exact absurd hset' hs
      · exact .inr ⟨a, hcap.append (hr.trans hlast), by rw [hupd, hlast], by rw [hupd, hlct]⟩
    case inr.inr.inr => exact .inl (by rw [hupd])

/-- Where a tick after a run from a settled filter changes `stable`, it accepts a level captured in the run
and sampled ever since, more than the window after its capture. -/
theorem captured_of_stable_ne {w window : Nat} {f : DebounceFilter w} {l : List (Bool × Instant w)}
    {x : Bool × Instant w} (hset : f.Settled)
    (hne : (f.run window (l ++ [x])).stable ≠ (f.run window l).stable) :
    (f.run window (l ++ [x])).stable = x.1 ∧
      ∃ a, CapturedAndHeld window f l a ∧ a.1 = x.1 ∧ window < (subTime x.2 a.2).toNat := by
  rw [filter_run_append, filter_run_cons, filter_run_nil] at hne ⊢
  obtain ⟨hraw, hpend, hpast, hupd⟩ := accepted_of_stable_ne hne
  refine ⟨by rw [hupd, hraw], ?_⟩
  obtain hset' | ⟨a, hcap, hlast, hlct⟩ := settled_or_captured (window := window) hset l
  · exact absurd hset' hpend
  · exact ⟨a, hcap, (hraw.trans hlast).symm, hlct ▸ hpast⟩

-- Stretches without a long run (40_debounce_filter.md R77)

section glitches
variable {w window : Nat} {f : DebounceFilter w} {l : List (Bool × Instant w)} {x : Bool × Instant w}

theorem NoLongRun.of_append (h : NoLongRun window (l ++ [x])) : NoLongRun window l := by
  rintro pre a mid z post rfl
  exact h pre a mid z (post ++ [x]) (by simp)

theorem NoLongRun.of_cons (h : NoLongRun window (x :: l)) : NoLongRun window l := by
  rintro pre a mid z post rfl
  exact h (x :: pre) a mid z post (by simp)

/-- The level that an acceptance needs would be such a long run. -/
theorem run_stable_of_noLongRun (hset : f.Settled) (hshort : NoLongRun window l) :
    (f.run window l).stable = f.stable := by
  induction l using List.reverseRecOn with
  | nil => rfl
  | append_singleton l x ih =>
    refine Eq.trans ?_ (ih hshort.of_append)
    by_contra hne
    obtain ⟨-, a, ⟨pre, mid, rfl, -, hheld⟩, hax, hpast⟩ := captured_of_stable_ne hset hne
    have hspan := hshort pre a mid x [] (by simp) hheld hax.symm
    omega

/-- A change of the raw level where another is pending takes the pending one back. -/
theorem update_settled_of_pending (hpend : f.stable ≠ f.last) (hx : x.1 ≠ f.last) :
    (f.update window x.1 x.2).Settled := by
  rw [update_of_change hx]
  exact (Bool.eq_not.mpr hpend).trans (Bool.eq_not.mpr hx).symm

end glitches

-- The statements

/-- Settles O11: UPDATE commutes with inversion, so a run does. -/
theorem polarityMayStandAfterTheFilter : Obligations.PolarityMayStandAfterTheFilter := by
  unfold Obligations.PolarityMayStandAfterTheFilter
  exact fun _ window f l => inverted_run window f l

/-- Settles O15: the one case of UPDATE that writes `stable` is the acceptance. -/
theorem stableChangesOnlyToAHeldLevel : Obligations.StableChangesOnlyToAHeldLevel := by
  unfold Obligations.StableChangesOnlyToAHeldLevel
  intro w window f raw now hne
  obtain ⟨hraw, -, hpast, hupd⟩ := accepted_of_stable_ne hne
  exact ⟨hraw, hpast, by rw [hupd, hraw]⟩

/-- Settles O16: the accepted level was captured in the run (`settled_or_captured`). -/
theorem stableChangeNeedsALevelHeldPastTheWindow :
    Obligations.StableChangeNeedsALevelHeldPastTheWindow := by
  unfold Obligations.StableChangeNeedsALevelHeldPastTheWindow
  intro w window f l x hset hne
  obtain ⟨hstable, a, ⟨pre, mid, hl, hchange, hheld⟩, hax, hpast⟩ := captured_of_stable_ne hset hne
  exact ⟨hstable, pre, a, mid, hl, hchange, hax, fun y hy => (hheld y hy).trans hax, hpast⟩

/-- Settles O17: a filter with a level pending is settled after its first sample, which is a change; and from
a settled one, an acceptance would need a long run. -/
theorem glitchesNeverChangeStable : Obligations.GlitchesNeverChangeStable := by
  unfold Obligations.GlitchesNeverChangeStable
  intro w window f l hstart hshort
  by_cases hset : f.Settled
  · exact run_stable_of_noLongRun hset hshort
  · have hhead := hstart.resolve_left hset
    cases l with
    | nil => rfl
    | cons x l =>
      have hx : x.1 ≠ f.last := hhead x rfl
      rw [filter_run_cons,
        run_stable_of_noLongRun (update_settled_of_pending hset hx) hshort.of_cons, update_of_change hx]

/-- Settles O18: the first tick captures the level, which is pending since then or settled at once. -/
theorem heldLevelIsAcceptedAtTheFirstTickPastTheWindow :
    Obligations.HeldLevelIsAcceptedAtTheFirstTickPastTheWindow := by
  unfold Obligations.HeldLevelIsAcceptedAtTheFirstTickPastTheWindow
  exact fun w window f v nowK l hlast hheld =>
    ⟨fun hstable => run_stable_of_held_change nowK hlast hstable hheld,
      fun hstable => run_of_held_return nowK hlast hstable hheld⟩

/-- Settles O19: acceptance by the wrapped difference, which is the true one at every tick of the stretch. -/
theorem acceptanceMeasuresTrueTimeUnderTimeMonotone :
    Obligations.AcceptanceMeasuresTrueTimeUnderTimeMonotone := by
  unfold Obligations.AcceptanceMeasuresTrueTimeUnderTimeMonotone
  intro w window f v timeK times hlast hstable hmono
  have helapsed : ∀ τ ∈ times,
      (subTime (BitVec.ofNat w τ) (BitVec.ofNat w timeK)).toNat = τ - timeK := fun τ hτ => by
    obtain ⟨hle, hspan⟩ := List.rel_of_pairwise_cons hmono hτ
    exact toNat_subTime_ofNat hle hspan
  rw [List.map_cons, run_stable_of_held_change _ hlast hstable (by simp)]
  simp only [List.mem_map, exists_exists_and_eq_and]
  exact exists_congr fun τ => and_congr_right fun hτ => by rw [helapsed τ hτ]

end Sys2Proof.Machine
end

section
/-! PROOFS. The statements about the step and its rows: 41_transition_table.md section 3, and the word that the
host places. They rest on what `T` does with a change, with IDLE and with disarm, and on a placed word being
the selector word of the next step, so that a tick can be made from any state at any levels. -/

namespace Sys2Proof.Machine

-- The transition function (41_transition_table.md R115, R116)

section T
variable (st : Ctrl) (armFire disarm camSwitch : Bool)

/-- No edge enters IDLE. -/
theorem eq_idle_of_T_eq_idle (h : T st armFire disarm camSwitch = .idle) : st = .idle := by
  revert armFire disarm camSwitch
  cases st <;> decide

/-- A change of state is one of the 13 edges. -/
theorem mem_transitionEdges_of_T_ne (h : T st armFire disarm camSwitch ≠ st) :
    (st, T st armFire disarm camSwitch) ∈ transitionEdges := by
  revert armFire disarm camSwitch
  cases st <;> decide

/-- Each of the 13 edges is made at some levels. -/
theorem exists_T_of_mem_transitionEdges :
    ∀ p ∈ transitionEdges, ∃ armFire disarm camSwitch, T p.1 armFire disarm camSwitch = p.2 := by
  decide

/-- Where disarm is checked, it is checked first. -/
theorem T_of_disarm :
    (st = .idle ∨ st = .cocking → T st armFire true camSwitch = .resetting) ∧
    (st = .cocked ∨ st = .firing → T st armFire true camSwitch = .decocking) ∧
    (st = .recockingAfterReset → T st armFire true camSwitch = .idleAfterReset) := by
  refine ⟨?_, ?_, ?_⟩
  · rintro (rfl | rfl) <;> rfl
  · rintro (rfl | rfl) <;> rfl
  · rintro rfl
    rfl

end T

/-- The next state of a step outside reset. -/
theorem state_of_tick_step {s t : State} (hrst : s.input.rst = false) (h : step s = .next t) :
    t.regs.state = T s.regs.state (s.regs.debounced Config.window s.input .armFire)
      (s.regs.debounced Config.window s.input .disarm)
      (s.regs.debounced Config.window s.input .camSwitch) := by
  rw [regs_of_step h, edge_of_tick _ _ _ hrst, tick_state]

-- The word that the host places (notes/assumptions/6.md)

section placed
variable (s : State) (x : Sel)

/-- Six bits of a byte are the whole of a selector word. -/
theorem ofNat_toNat_mod_byte : BitVec.ofNat 6 (x.toNat % 2 ^ 8) = x := by
  have hsix : x.toNat < 2 ^ 6 := x.isLt
  rw [Nat.mod_eq_of_lt (by omega), BitVec.ofNat_toNat, BitVec.setWidth_eq]

theorem placed_rst : (s.withFetchWord 8 x.toNat).input.rst = false := rfl

theorem placed_state : (s.withFetchWord 8 x.toNat).regs.state = Ctrl.ofCode (selState x) :=
  congrArg (fun y => Ctrl.ofCode (selState y)) (ofNat_toNat_mod_byte x)

/-- A filter settled at the level that the pin of its channel shows returns that level. -/
theorem update_settledAt_stable {w : Nat} (window : Nat) (f : DebounceFilter w) (c : Chan) (level : Bool)
    (now : Instant w) :
    ((f.settledAt level).update window (normalise c (normalise c level)) now).stable = level := by
  rw [normalise_normalise, update_of_settled rfl (settledAt_last f level).symm, settledAt_stable]

/-- A placed word is the selector word of the next edge. -/
theorem placed_selector : (s.withFetchWord 8 x.toNat).selector = x := by
  have hword := ofNat_toNat_mod_byte x
  simp only [State.selector, Regs.selector, debounced_eq_update_stable, State.withFetchWord,
    State.placeSelector, hword, input_placed, filter_armFire, filter_disarm, filter_camSwitch, pin_armFire,
    pin_disarm, pin_camSwitch, update_settledAt_stable, code_ofCode, selWord_of_fields]

end placed

/-- An instruction whose word is placed is run by the next step. -/
theorem step_placed (s : State) (i : Instr) :
    step (s.withFetchWord 8 (encode i).toNat) = exec i (s.withFetchWord 8 (encode i).toNat) := by
  rw [step_of_tick _ (placed_rst s (encode i)), placed_selector, decode_encode]

/-- At any state and levels there is a tick, and it goes where `T` goes. -/
theorem exists_tick (st : Ctrl) (armFire disarm camSwitch : Bool) :
    ∃ s t : State, s.input.rst = false ∧ step s = .next t ∧ s.regs.state = st ∧
      t.regs.state = T st armFire disarm camSwitch := by
  obtain ⟨i, hdec, hnext⟩ := exists_decode_selWord st armFire disarm camSwitch
  have hword := encode_of_decode hdec
  have hstep : step (State.reset.withFetchWord 8 (encode i).toNat) = _ :=
    (step_placed State.reset i).trans ((exec_eq_tickRow _ _).trans (tickRow_next _ _))
  refine ⟨_, _, placed_rst State.reset (encode i), hstep, ?_, ?_⟩
  · rw [placed_state, hword, selState_selWord, ofCode_code]
  · rw [afterEdge_regs, tickTo_state, hnext]

-- The statements

/-- Settles O30: the tick writes `T` of the debounced levels, and `T` checks disarm first. -/
theorem disarmComesFirstWhereItIsChecked : Obligations.DisarmComesFirstWhereItIsChecked := by
  unfold Obligations.DisarmComesFirstWhereItIsChecked
  intro s hrst hdisarm
  have hstep := step_eq_edge s
  have hstate := state_of_tick_step hrst hstep
  rw [hdisarm] at hstate
  refine ⟨_, hstep, ?_⟩
  rw [hstate]
  exact T_of_disarm _ _ _

/-- Settles O31: a tick's change is a change made by `T`; and each edge, made by `T` at some levels, is made
by a tick from a placed word with those levels. -/
theorem ticksMakeExactlyTheThirteenTransitions : Obligations.TicksMakeExactlyTheThirteenTransitions := by
  unfold Obligations.TicksMakeExactlyTheThirteenTransitions
  refine ⟨fun s t hrst hstep hne => ?_, fun p hp => ?_⟩
  · rw [state_of_tick_step hrst hstep] at hne ⊢
    exact mem_transitionEdges_of_T_ne _ _ _ _ hne
  · obtain ⟨a, d, c, hT⟩ := exists_T_of_mem_transitionEdges p hp
    exact hT ▸ exists_tick p.1 a d c

/-- Settles O32: the reset write gives IDLE only where the cam pin is low, the tick write only in IDLE. -/
theorem idleIsEnteredOnlyByReset : Obligations.IdleIsEnteredOnlyByReset := by
  unfold Obligations.IdleIsEnteredOnlyByReset
  intro s t hstep hidle
  cases hrst : s.input.rst with
  | true =>
    rw [regs_of_step hstep, edge_of_reset _ _ _ hrst, reset_state] at hidle
    exact .inr ⟨rfl, by cases hcam : s.input.camSwitchPin <;> simp_all [bootstrap]⟩
  | false => exact .inl (eq_idle_of_T_eq_idle _ _ _ _ (state_of_tick_step hrst hstep ▸ hidle))

/-- Settles O35: outside reset the step is the decoded row and nothing else. -/
theorem stepRunsTheDecodedRow : Obligations.StepRunsTheDecodedRow := by
  unfold Obligations.StepRunsTheDecodedRow
  intro s i hrst hdec _
  rw [step_of_tick s hrst, hdec]

/-- Settles O56: the placed word is the selector word, which decodes to the instruction. -/
theorem placedInstructionIsRunByTheNextStep : Obligations.PlacedInstructionIsRunByTheNextStep := by
  unfold Obligations.PlacedInstructionIsRunByTheNextStep
  intro s i s'
  have hrow : exec i s' = tickRow i.row.next s' := exec_eq_tickRow i s'
  exact ⟨step_placed s i, _, (step_placed s i).trans (hrow.trans (tickRow_next _ _)),
    tickRow_effect (tickRow_next _ _)⟩

end Sys2Proof.Machine
end

section
/-! PROOFS. The statements about the step as the edge function, in 43_control_loop.md and 20_memory.md
section 3. They rest on `step_eq_edge`, and on what a tick writes into the diagnostic registers and what it
reads: at a change all three are written, else the payload holds, and none of them is read. -/

namespace Sys2Proof.Machine

-- The run of a placed stimulus

/-- A run goes on from the state that its first step answers. -/
theorem run_succ_of_step (M : Host.Core) {s s' : M.State} (k : Nat) (h : M.step s = .next s') :
    M.run (k + 1) s = M.run k s' := by
  rw [Host.Core.run, h]

theorem core_run_placed (r : Regs Config.timeW) (ins rest : List (Inputs Config.timeW)) (n : Nat) :
    Host.Core.run Sys2Proof.core ins.length (State.mk r (ins ++ rest) n) =
      .next (State.mk (r.run Config.window ins) rest (n + ins.length)) := by
  induction ins generalizing r n with
  | nil => rfl
  | cons inp ins ih =>
    have hstep : step (State.mk r (inp :: (ins ++ rest)) n) =
        .next (State.mk (r.edge Config.window inp) (ins ++ rest) (n + 1)) := step_eq_edge _
    rw [List.length_cons, List.cons_append, run_succ_of_step Sys2Proof.core ins.length hstep, ih, run_cons,
      Nat.add_right_comm, Nat.add_assoc]

-- The diagnostic registers (43_control_loop.md R135)

/-- A tick that keeps the state keeps the payload. -/
theorem edge_payload_of_hold {w window : Nat} {r : Regs w} {inp : Inputs w} (hrst : inp.rst = false)
    (heq : (r.edge window inp).state = r.state) :
    (r.edge window inp).diagState = r.diagState ∧ (r.edge window inp).diagCamRaw = r.diagCamRaw := by
  rw [edge_of_tick _ _ _ hrst, Regs.tick] at heq ⊢
  rw [tickTo_state] at heq
  simp [heq]

/-- At reset no event has happened yet. -/
theorem reset_noEventYet (w : Nat) (cam : Bool) : (Regs.reset w cam).NoEventYet := by
  refine ⟨?_, reset_diagValid w cam, reset_diagState w cam, reset_diagCamRaw w cam⟩
  cases cam
  · exact .inl rfl
  · exact .inr rfl

/-- An edge keeps the diagnostic truthful. A change of state writes the new code, and the new state is not
IDLE; a tick that keeps the state keeps the payload, and with no event before it makes none. -/
theorem edge_diagTruthful {w window : Nat} {r : Regs w} (inp : Inputs w) (h : r.DiagTruthful) :
    (r.edge window inp).DiagTruthful := by
  cases hrst : inp.rst with
  | true =>
    rw [edge_of_reset _ _ _ hrst]
    exact .inl (reset_noEventYet w inp.camSwitchPin)
  | false =>
    by_cases hsame : (r.edge window inp).state = r.state
    case pos =>
      obtain ⟨hcode, hcam⟩ := edge_payload_of_hold hrst hsame
      obtain ⟨hboot, -, hstate, hraw⟩ | ⟨hstate, hne⟩ := h
      · have hstrobe : (r.edge window inp).diagValid = false := by
          rw [edge_diagValid, hsame]
          simp
        exact .inl ⟨hsame ▸ hboot, hstrobe, hcode.trans hstate, hcam.trans hraw⟩
      · exact .inr ⟨by rw [hcode, hstate, hsame], hsame ▸ hne⟩
    case neg =>
      refine .inr ⟨(edge_payload_of_change hrst hsame).1, fun hidle => hsame ?_⟩
      have htick : T r.state _ _ _ = .idle :=
        (tick_state window r inp).symm.trans (edge_of_tick _ _ _ hrst ▸ hidle)
      rw [hidle, eq_idle_of_T_eq_idle _ _ _ _ htick]

/-- Registers that differ at most in the diagnostic ones. -/
def Regs.SameButDiag {w : Nat} (r r' : Regs w) : Prop :=
  r'.state = r.state ∧ ∀ c, r'.filter c = r.filter c

/-- An edge reads none of the diagnostic registers for the filters and the state. -/
theorem Regs.SameButDiag.edge {w window : Nat} {r r' : Regs w} (inp : Inputs w) (h : r.SameButDiag r') :
    (r.edge window inp).SameButDiag (r'.edge window inp) := by
  obtain ⟨hstate, hfilter⟩ := h
  refine ⟨?_, fun c => by rw [edge_filter, edge_filter, hfilter]⟩
  simp only [edge_state, debounced_eq_update_stable, hstate, hfilter]

theorem Regs.SameButDiag.run {w window : Nat} {r r' : Regs w} (h : r.SameButDiag r') (l : List (Inputs w)) :
    (r.run window l).SameButDiag (r'.run window l) := by
  induction l generalizing r r' with
  | nil => exact h
  | cons inp l ih => exact ih (h.edge inp)

-- The statements

/-- Settles O36: a step answers the edge, and a row the tick to its next state. -/
theorem noStepFaultsOrRefuses : Obligations.NoStepFaultsOrRefuses := by
  unfold Obligations.NoStepFaultsOrRefuses
  exact ⟨fun s => ⟨_, step_eq_edge s⟩,
    fun i s => ⟨_, (exec_eq_tickRow i s).trans (tickRow_next i.row.next s)⟩⟩

/-- Settles O37: the rows and `T` agree on every selector word (`step_eq_edge`). -/
theorem stepIsTheEdgeFunction : Obligations.StepIsTheEdgeFunction := by
  unfold Obligations.StepIsTheEdgeFunction
  exact step_eq_edge

/-- Settles O38: rows and steps end in `State.afterEdge` of their state. -/
theorem everyRowAndStepUsesUpOneEdge : Obligations.EveryRowAndStepUsesUpOneEdge := by
  unfold Obligations.EveryRowAndStepUsesUpOneEdge
  refine ⟨fun i s t hexec => ?_, fun s t hstep => ?_⟩
  · rw [exec_eq_tickRow, tickRow_next] at hexec
    cases hexec
    exact ⟨afterEdge_stim s _, afterEdge_edges s _⟩
  · rw [eq_afterEdge_of_step hstep]
    exact ⟨afterEdge_stim s _, afterEdge_edges s _⟩

/-- Settles O39, by induction over the edges placed. -/
theorem placedStimulusRunsEdgeByEdge : Obligations.PlacedStimulusRunsEdgeByEdge := by
  unfold Obligations.PlacedStimulusRunsEdgeByEdge
  exact core_run_placed

/-- Settles O42: the strobe, the payload at a change, and the payload else, each by its own rule. -/
theorem diagnosticIsWrittenExactlyOnAChange : Obligations.DiagnosticIsWrittenExactlyOnAChange := by
  unfold Obligations.DiagnosticIsWrittenExactlyOnAChange
  intro s t hrst hstep
  rw [regs_of_step hstep]
  exact ⟨by simp [edge_diagValid, hrst], edge_payload_of_change hrst, edge_payload_of_hold hrst⟩

/-- Settles O43: every edge keeps registers alike in all but the diagnostic ones. -/
theorem diagnosticRegistersInfluenceNothingElse : Obligations.DiagnosticRegistersInfluenceNothingElse := by
  unfold Obligations.DiagnosticRegistersInfluenceNothingElse
  intro w window r v d c l r'
  have hsame : r.SameButDiag r' := ⟨rfl, fun ch => by cases ch <;> rfl⟩
  exact hsame.run l

/-- Settles O44: the step leaves the registers of the edge, which keeps the invariant. -/
theorem everyStepKeepsTheDiagnosticTruthful : Obligations.EveryStepKeepsTheDiagnosticTruthful := by
  unfold Obligations.EveryStepKeepsTheDiagnosticTruthful
  intro s t htrue hstep
  rw [regs_of_step hstep]
  exact edge_diagTruthful s.input htrue

/-- Settles O45: at reset there has been no event. -/
theorem resetStateHasTruthfulDiagnostic : Obligations.ResetStateHasTruthfulDiagnostic := by
  unfold Obligations.ResetStateHasTruthfulDiagnostic
  exact .inl (reset_noEventYet Config.timeW Config.bootCamPin)

end Sys2Proof.Machine
end

section
/-! PROOFS. The statements that 10_state.md section 5, 30_encoding.md sections 6 and 7 and
70_reset_and_hazards.md make of edges and runs as a whole. They rest on three facts about times: a tick reads
them by difference alone, it reads no time of a settled filter, and two ticks `WINDOW + 1` counts apart settle
every settled filter at the level they show. -/

namespace Sys2Proof.Machine

-- Translation in time (30_encoding.md R61)

section shift
variable {w : Nat} (window : Nat)

theorem subTime_add_add (now lct d : Instant w) : subTime (now + d) (lct + d) = subTime now lct :=
  add_sub_add_right_eq_sub now lct d

section filter
variable (f : DebounceFilter w) (raw : Bool) (now d : Instant w)

theorem capture_shift : (f.withLct (f.lct + d)).capture raw (now + d) =
    (f.capture raw now).withLct ((f.capture raw now).lct + d) := by
  by_cases hsame : raw = f.last <;> simp [capture_eq, DebounceFilter.withLct, hsame]

theorem accept_shift : (f.withLct (f.lct + d)).accept window (now + d) =
    (f.accept window now).withLct ((f.accept window now).lct + d) := by
  simp [accept_eq, DebounceFilter.withLct, subTime_add_add]

theorem update_shift : (f.withLct (f.lct + d)).update window raw (now + d) =
    (f.update window raw now).withLct ((f.update window raw now).lct + d) := by
  rw [DebounceFilter.update, capture_shift, accept_shift, DebounceFilter.update]

end filter

section regs
variable (r : Regs w) (inp : Inputs w) (d : Instant w) (c : Chan)

theorem filterAfter_shift : (r.shiftTime d).filterAfter window (inp.shiftTime d) c =
    (r.filterAfter window inp c).withLct ((r.filterAfter window inp c).lct + d) := by
  cases c <;> exact update_shift window _ _ _ _

theorem debounced_shift : (r.shiftTime d).debounced window (inp.shiftTime d) c = r.debounced window inp c := by
  rw [Regs.debounced, filterAfter_shift]
  rfl

theorem tick_shift : (r.shiftTime d).tick window (inp.shiftTime d) = (r.tick window inp).shiftTime d := by
  have hstate : (r.shiftTime d).state = r.state := rfl
  simp only [Regs.tick, debounced_shift, hstate, tickTo_eq, filterAfter_shift]
  rfl

end regs

end shift

-- Times that no tick reads (10_state.md R34)

/-- Filters that are alike, but that where nothing is pending the times may differ. -/
def DebounceFilter.SameButIdleTime {w : Nat} (f f' : DebounceFilter w) : Prop :=
  f' = f ∨ (f.Settled ∧ ∃ t, f' = f.withLct t)

section idleTime
variable {w window : Nat} {f f' : DebounceFilter w}

theorem DebounceFilter.SameButIdleTime.stable_eq (h : f.SameButIdleTime f') : f'.stable = f.stable := by
  obtain rfl | ⟨-, t, rfl⟩ := h <;> rfl

/-- A tick keeps an idle time or overwrites it. -/
theorem DebounceFilter.SameButIdleTime.update (h : f.SameButIdleTime f') (raw : Bool) (now : Instant w) :
    (f.update window raw now).SameButIdleTime (f'.update window raw now) := by
  obtain rfl | ⟨hset, t, rfl⟩ := h
  · exact .inl rfl
  · by_cases hr : raw = f.last
    · have hset' : (f.withLct t).Settled := hset
      rw [update_of_settled hset hr, update_of_settled hset' hr]
      exact .inr ⟨hset, t, rfl⟩
    · have hr' : raw ≠ (f.withLct t).last := hr
      rw [update_of_change hr, update_of_change hr']
      exact .inl rfl

end idleTime

/-- Registers that are alike but for the times of filters with nothing pending. -/
structure Regs.SameButIdleTimes {w : Nat} (r r' : Regs w) : Prop where
  filter : ∀ c, (r.filter c).SameButIdleTime (r'.filter c)
  state : r'.state = r.state
  diagValid : r'.diagValid = r.diagValid
  diagState : r'.diagState = r.diagState
  diagCamRaw : r'.diagCamRaw = r.diagCamRaw

section idleTimes
variable {w window : Nat} {r r' : Regs w}

theorem Regs.SameButIdleTimes.refl (r : Regs w) : r.SameButIdleTimes r :=
  ⟨fun _ => .inl rfl, rfl, rfl, rfl, rfl⟩

theorem Regs.SameButIdleTimes.outputs_eq (h : r.SameButIdleTimes r') : r'.outputs = r.outputs := by
  simp only [Regs.outputs, h.state, h.diagValid, h.diagState, h.diagCamRaw]

theorem Regs.SameButIdleTimes.debounced_eq (h : r.SameButIdleTimes r') (inp : Inputs w) (c : Chan) :
    r'.debounced window inp c = r.debounced window inp c :=
  ((h.filter c).update _ _).stable_eq

theorem Regs.SameButIdleTimes.tickTo (h : r.SameButIdleTimes r') (next : Ctrl) (inp : Inputs w) :
    (r.tickTo window next inp).SameButIdleTimes (r'.tickTo window next inp) where
  filter c := by
    rw [tickTo_filter, tickTo_filter]
    exact (h.filter c).update _ _
  state := by rw [tickTo_state, tickTo_state]
  diagValid := by rw [tickTo_diagValid, tickTo_diagValid, h.state]
  diagState := by rw [tickTo_diagState, tickTo_diagState, h.state, h.diagState]
  diagCamRaw := by rw [tickTo_diagCamRaw, tickTo_diagCamRaw, h.state, h.diagCamRaw]

theorem Regs.SameButIdleTimes.edge (h : r.SameButIdleTimes r') (inp : Inputs w) :
    (r.edge window inp).SameButIdleTimes (r'.edge window inp) := by
  cases hrst : inp.rst with
  | true =>
    rw [edge_of_reset _ _ _ hrst, edge_of_reset _ _ _ hrst]
    exact .refl _
  | false =>
    rw [edge_of_tick _ _ _ hrst, edge_of_tick _ _ _ hrst, Regs.tick, Regs.tick, h.state, h.debounced_eq,
      h.debounced_eq, h.debounced_eq]
    exact h.tickTo _ inp

theorem Regs.SameButIdleTimes.outputTrace_eq (h : r.SameButIdleTimes r') (l : List (Inputs w)) :
    r'.outputTrace window l = r.outputTrace window l := by
  induction l generalizing r r' with
  | nil => rfl
  | cons inp l ih =>
    have hedge := h.edge (window := window) inp
    rw [Regs.outputTrace, Regs.outputTrace, hedge.outputs_eq, ih hedge]

end idleTimes

-- Runs of ticks

/-- What the filter of a channel sees of an edge. -/
def Inputs.sample {w : Nat} (c : Chan) (inp : Inputs w) : Bool × Instant w := (inp.raw c, inp.now)

section ticks
variable {w : Nat} (window : Nat) (r : Regs w) {l : List (Inputs w)}

/-- Over ticks alone, each filter runs over its own samples. -/
theorem run_filter_of_ticks (c : Chan) (hl : ∀ inp ∈ l, inp.rst = false) :
    (r.run window l).filter c = (r.filter c).run window (l.map (Inputs.sample c)) := by
  induction l generalizing r with
  | nil => rfl
  | cons inp l ih =>
    obtain ⟨hrst, hl⟩ := List.forall_mem_cons.mp hl
    rw [run_cons, ih _ hl, edge_of_tick _ _ _ hrst, tick_filter, List.map_cons, filter_run_cons]
    rfl

/-- Ticks alone do not enter IDLE. -/
theorem run_state_ne_idle (hl : ∀ inp ∈ l, inp.rst = false) (h : r.state ≠ .idle) :
    (r.run window l).state ≠ .idle := by
  induction l generalizing r with
  | nil => exact h
  | cons inp l ih =>
    obtain ⟨hrst, hl⟩ := List.forall_mem_cons.mp hl
    refine ih (r.edge window inp) hl fun hidle => h ?_
    rw [edge_of_tick _ _ _ hrst, tick_state] at hidle
    exact eq_idle_of_T_eq_idle _ _ _ _ hidle

end ticks

-- A settle (30_encoding.md R63)

/-- The asserted level that a pin word gives a channel, at any time. -/
def pinLevel (p : PinWord) (c : Chan) : Bool := (Inputs.ofPins 0#0 p).raw c

theorem ofPins_raw {w : Nat} (now : Instant w) (p : PinWord) (c : Chan) :
    (Inputs.ofPins now p).raw c = pinLevel p c := by
  cases c <;> rfl

theorem expandLine_settle (w window t : Nat) (p : PinWord) : expandLine w window (.settle t p) =
    [Inputs.ofPins (BitVec.ofNat w t) p, Inputs.ofPins (BitVec.ofNat w (t + window + 1)) p] := rfl

/-- A settled filter that sees a level at two ticks `WINDOW + 1` counts apart is settled at it. -/
theorem update_update_of_settled {w window : Nat} {f : DebounceFilter w} (hset : f.Settled)
    (hfits : window + 1 < 2 ^ w) (t : Nat) (level : Bool) :
    ((f.update window level (BitVec.ofNat w t)).update window level
      (BitVec.ofNat w (t + window + 1))).stable = level := by
  by_cases hsame : level = f.last
  · rw [update_of_settled hset hsame, update_of_settled hset hsame, hset, hsame]
  · have hpend : f.stable ≠ level := fun h => hsame (h.symm.trans hset)
    have helapsed : (subTime (BitVec.ofNat w (t + window + 1)) (BitVec.ofNat w t)).toNat = window + 1 := by
      rw [toNat_subTime_ofNat (by omega) (by omega)]
      omega
    rw [update_of_change hsame, update_of_pending hpend rfl, helapsed, if_pos (Nat.lt_succ_self window)]

/-- Every filter is settled at the level that a pin word gives its channel. -/
def Regs.SettledAtPins {w : Nat} (r : Regs w) (p : PinWord) : Prop :=
  ∀ c, (r.filter c).stable = pinLevel p c ∧ (r.filter c).last = pinLevel p c

theorem reset_settledAtPins (w : Nat) (cam : Bool) : (Regs.reset w cam).SettledAtPins 0b110#3 := by
  intro c
  rw [reset_filter]
  cases c <;> exact ⟨rfl, rfl⟩

/-- The next state that `T` gives where the debounced levels are those of a pin word. -/
def nextAtPins (p : PinWord) (st : Ctrl) : Ctrl :=
  T st (pinLevel p .armFire) (pinLevel p .disarm) (pinLevel p .camSwitch)

section settle
variable {w window : Nat} {r : Regs w}

theorem edge_state_of_debounced {inp : Inputs w} {p : PinWord} (hrst : inp.rst = false)
    (h : ∀ c, r.debounced window inp c = pinLevel p c) : (r.edge window inp).state = nextAtPins p r.state := by
  rw [edge_of_tick _ _ _ hrst, tick_state, h, h, h, nextAtPins]

/-- A settle from settled filters ticks once at the old levels and once at the new ones, and leaves the
filters settled at these. -/
theorem run_settle {p : PinWord} (hset : r.SettledAtPins p) (hfits : window + 1 < 2 ^ w) (t : Nat)
    (q : PinWord) :
    (r.run window (expandLine w window (.settle t q))).SettledAtPins q ∧
      (r.run window (expandLine w window (.settle t q))).state = nextAtPins q (nextAtPins p r.state) := by
  have hsettled : ∀ c, (r.filter c).Settled := fun c => (hset c).1.trans (hset c).2.symm
  rw [expandLine_settle, run_cons, run_cons, run_nil]
  set first : Inputs w := Inputs.ofPins (BitVec.ofNat w t) q
  set second : Inputs w := Inputs.ofPins (BitVec.ofNat w (t + window + 1)) q
  have hfirst : ∀ c, r.debounced window first c = pinLevel p c := fun c =>
    (update_stable_of_settled (hsettled c)).trans (hset c).1
  have hfilter : ∀ c, (r.edge window first).filter c =
      (r.filter c).update window (pinLevel q c) (BitVec.ofNat w t) := fun c => by
    rw [edge_of_tick _ _ _ rfl, tick_filter, ofPins_raw, ofPins_now]
  have hsecond : ∀ c, (r.edge window first).debounced window second c = pinLevel q c := fun c => by
    rw [debounced_eq_update_stable, hfilter]
    exact (congrArg (fun level => DebounceFilter.stable (DebounceFilter.update window _ level _))
      (ofPins_raw _ q c)).trans (update_update_of_settled (hsettled c) hfits t (pinLevel q c))
  refine ⟨fun c => ?_, ?_⟩
  · rw [edge_of_tick _ _ _ rfl, tick_filter]
    exact ⟨hsecond c, (update_last _ _ _ _).trans (ofPins_raw _ q c)⟩
  · rw [edge_state_of_debounced rfl hsecond, edge_state_of_debounced rfl hfirst]

/-- The trace that settles at each of the given pin words in turn. -/
def settles (w window : Nat) (ps : List PinWord) : List (Inputs w) :=
  expandTrace w window (ps.map (.settle 0))

theorem settles_nil : settles w window [] = [] := rfl

theorem settles_cons (p : PinWord) (ps : List PinWord) :
    settles w window (p :: ps) = expandLine w window (.settle 0 p) ++ settles w window ps := rfl

theorem settles_rst (ps : List PinWord) : ∀ inp ∈ settles w window ps, inp.rst = false := by
  induction ps with
  | nil => simp [settles_nil]
  | cons p ps ih => simpa [settles_cons, expandLine_settle] using ih

/-- The state after settling at each of the given pin words in turn, with the levels of the first before. -/
def stateAfterSettles : PinWord → Ctrl → List PinWord → Ctrl
  | _, st, [] => st
  | p, st, q :: qs => stateAfterSettles q (nextAtPins q (nextAtPins p st)) qs

theorem run_settles {p : PinWord} (hset : r.SettledAtPins p) (hfits : window + 1 < 2 ^ w)
    (qs : List PinWord) :
    (r.run window (settles w window qs)).state = stateAfterSettles p r.state qs := by
  induction qs generalizing r p with
  | nil => rfl
  | cons q qs ih =>
    obtain ⟨hset', hstate⟩ := run_settle hset hfits 0 q
    rw [settles_cons, run_append, ih hset', hstate, stateAfterSettles]

end settle

-- Reachability (41_transition_table.md R116)

/-- Pin words that lead from a bootstrap state to each state: `0b010` asserts arm_fire, `0b100` disarm,
`0b111` the cam switch, `0b011` and `0b101` one of the buttons and the cam switch, `0b110` nothing. -/
def pinsTo : Bool → Ctrl → List PinWord
  | _, .idle => []
  | false, .cocking => [0b010#3]
  | false, .cocked => [0b010#3, 0b111#3]
  | false, .firing => [0b010#3, 0b111#3, 0b011#3]
  | false, .decocking => [0b010#3, 0b111#3, 0b101#3]
  | false, .resetting => [0b100#3]
  | true, .cocking => [0b010#3, 0b010#3]
  | true, .cocked => []
  | true, .firing => [0b010#3]
  | true, .decocking => [0b100#3]
  | true, .resetting => [0b100#3, 0b110#3]
  | _, .idleAfterReset => [0b100#3, 0b111#3]
  | _, .recockingAfterReset => [0b100#3, 0b111#3, 0b010#3]

theorem stateAfterSettles_pinsTo (cam : Bool) (c : Ctrl) (h : cam = true → c ≠ .idle) :
    stateAfterSettles 0b110#3 (bootstrap cam) (pinsTo cam c) = c := by
  cases cam with
  | false => cases c <;> rfl
  | true =>
    cases c
    case idle => exact absurd rfl (h rfl)
    all_goals rfl

-- The statements

/-- Settles O20: UPDATE reads a time only by its difference from `now`, and nothing else reads one. -/
theorem tickComparesTimesOnlyByDifference : Obligations.TickComparesTimesOnlyByDifference := by
  unfold Obligations.TickComparesTimesOnlyByDifference
  exact fun _ window r inp d => tick_shift window r inp d

/-- Settles O33: settles lead to every state but IDLE from both bootstrap states; and ticks stay in IDLE or
never come to it. -/
theorem everyStateIsReachableFromTheBootstrapStates :
    Obligations.EveryStateIsReachableFromTheBootstrapStates := by
  unfold Obligations.EveryStateIsReachableFromTheBootstrapStates
  intro w window _ hfits cam c
  constructor
  · rintro ⟨l, hl, rfl⟩ rfl
    have hcocked : (Regs.reset w true).state ≠ .idle := by
      rw [reset_state]
      decide
    exact run_state_ne_idle window _ hl hcocked
  · intro hc
    refine ⟨settles w window (pinsTo cam c), settles_rst _, ?_⟩
    rw [run_settles (reset_settledAtPins w cam) hfits, reset_state, stateAfterSettles_pinsTo cam c hc]

/-- Settles O51: both bootstrap states are NEUTRAL in MAP's table. -/
theorem servoIsNeutralAfterReset : Obligations.ServoIsNeutralAfterReset := by
  unfold Obligations.ServoIsNeutralAfterReset
  intro s hrst
  obtain ⟨hboot, hstrobe, -⟩ := reset_noEventYet Config.timeW s.input.camSwitchPin
  obtain ⟨hcmd, hpulse, hlit⟩ := servoPorts_of_M (M_eq_neutral (hboot.imp_right .inl))
  exact ⟨_, (step_of_reset s hrst).trans (resetEdge_next s), hcmd, hpulse, hlit, hstrobe⟩

/-- Settles O52: a reset edge leaves the reset registers of the pin it samples. -/
theorem resetEdgeForgetsEverythingButTheCamPin : Obligations.ResetEdgeForgetsEverythingButTheCamPin := by
  unfold Obligations.ResetEdgeForgetsEverythingButTheCamPin
  intro s₁ s₂ t₁ t₂ hrst₁ hrst₂ hcam hstep₁ hstep₂
  rw [regs_of_step hstep₁, regs_of_step hstep₂, edge_of_reset _ _ _ hrst₁, edge_of_reset _ _ _ hrst₂, hcam]

/-- Settles O53: at reset every filter is settled, so its time is idle, and no output shows a time. -/
theorem resetValueOfLastChangeTimeIsUnobservable :
    Obligations.ResetValueOfLastChangeTimeIsUnobservable := by
  unfold Obligations.ResetValueOfLastChangeTimeIsUnobservable
  intro w window cam x y z l r r'
  have hsame : r.SameButIdleTimes r' :=
    { filter := fun c => .inr ⟨by rw [reset_filter]; rfl, by cases c <;> exact ⟨_, rfl⟩⟩
      state := rfl
      diagValid := rfl
      diagState := rfl
      diagCamRaw := rfl }
  exact hsame.outputTrace_eq l

/-- Settles O54: the channel's filter runs over samples held asserted, from a reset record that is not. -/
theorem inputHeldSinceResetIsSeenOnlyPastTheWindow :
    Obligations.InputHeldSinceResetIsSeenOnlyPastTheWindow := by
  unfold Obligations.InputHeldSinceResetIsSeenOnlyPastTheWindow
  intro w window cam c first l hheld
  have hfirst : first.sample c = (true, first.now) :=
    congrArg (Prod.mk · first.now) (hheld first List.mem_cons_self).2
  have hrest : ∀ x ∈ l.map (Inputs.sample c), x.1 = true :=
    List.forall_mem_map.mpr fun inp hinp => (hheld inp (List.mem_cons_of_mem first hinp)).2
  rw [run_filter_of_ticks window _ c fun inp hinp => (hheld inp hinp).1, reset_filter, List.map_cons, hfirst,
    run_stable_of_held_change first.now (by simp) (by simp) hrest]
  simp only [List.mem_map, exists_exists_and_eq_and, Inputs.sample]

/-- Settles O55: a filter whose two levels both differ from the presented one is settled; the first tick
captures, and the second is `WINDOW + 1` counts later. -/
theorem settleMakesEveryChangedFilterAccept : Obligations.SettleMakesEveryChangedFilterAccept := by
  unfold Obligations.SettleMakesEveryChangedFilterAccept
  intro w window t p r c hfits level hlast hstable
  have hset : (r.filter c).Settled := (Bool.eq_not.mpr hstable).trans (Bool.eq_not.mpr hlast).symm
  have hticks : ∀ inp ∈ expandLine w window (.settle t p), inp.rst = false := by
    simp [expandLine_settle]
  rw [run_filter_of_ticks window r c hticks,
    run_filter_of_ticks window r c fun inp hinp => hticks inp (List.mem_of_mem_take hinp)]
  constructor
  · have hone : (r.filter c).update window level (BitVec.ofNat w t) =
        (r.filter c).run window (((expandLine w window (.settle t p)).take 1).map (Inputs.sample c)) := rfl
    rwa [← hone, update_stable_of_settled hset]
  · have hlevel : (Inputs.ofPins (BitVec.ofNat w (t + window + 1)) p).raw c = level :=
      (ofPins_raw _ p c).trans (ofPins_raw _ p c).symm
    rw [expandLine_settle, List.map_cons, List.map_cons, List.map_nil, filter_run_cons, filter_run_cons,
      filter_run_nil, Inputs.sample, Inputs.sample, hlevel]
    exact update_update_of_settled hset hfits t level

end Sys2Proof.Machine
end
